-- ==== Sys2Proof/Word.lean ====
section
/-! DEFINITION. The plain types of the TH7 model (00_scope.md, Notation): bytes, 32-bit words, the sparse tables that
hold every indexed kind of state as data, and the values and number formats of 03_number_formats.md. -/

namespace Sys2Proof

/-- One byte of addressed storage (R10: memory is little-endian). -/
abbrev Byte := BitVec 8

/-- One 32-bit word that the manual treats as bits: an FP32 code or an INT32 total (R51). -/
abbrev Word32 := BitVec 32

/-- Sparse data by number: the pairs stand in rising order of the number, and a number that is not listed has the
default that the reader of the table names. -/
abbrev Tbl (α : Type) := List (Nat × α)

/-- The value of a code (R75): a NaN, a signed infinity, or (-1)^neg × man × 2^exp with the sign of a zero kept. -/
inductive Val where
  | nan
  | inf (neg : Bool)
  | fin (neg : Bool) (man : Nat) (exp : Int)
deriving DecidableEq, Repr, Inhabited

/-- The number formats of R74 and R79. -/
inductive Fmt where
  | e4m3 | e5m2 | e3m2 | e2m3 | e2m1 | int8 | int4 | bf16 | fp16 | int2 | bin1 | fp32 | int32
deriving DecidableEq, Repr, Inhabited

/-- A rounding mode of R89: nearest, ties to even, or stochastic with `s` random bits of value `rnd`. -/
inductive Rnd where
  | rne
  | sr (s rnd : Nat)
deriving DecidableEq, Repr

/-- A queue (R129): CQ and MQ of a tile by its flat number, GQ and PMQ of a pack. -/
inductive QId where
  | cq (tile : Nat)
  | mq (tile : Nat)
  | gq (pack : Nat)
  | pmq (pack : Nat)
deriving DecidableEq, Repr

/-- Who makes an access, with the Collar it carries (R432, R433): a unit of a pack, a tile (whose stores keep the order of
R230), a MOVE or a Retriever of a pack with the stage of its queue (R386, R387), the host through LDn, the management sources, a
raw Collar, or the sender of a fabric packet with the Collar that it carries and the stop at which the packet entered: port 0 to
7, or 8 + p for pack p of this device. -/
inductive Src where
  | unit (pack : Nat)
  | tile (t : Nat)
  | staged (pack stage : Nat)
  | ld (n : Nat)
  | mgmt
  | kennel
  | collar (c : Nat)
  | far (port c : Nat)
deriving DecidableEq, Repr

/-- The function of a host request, 8 for the FMLD, and whether the request came in the function's IDE stream (R485). -/
structure Via where
  ld : Nat := 0
  ide : Bool := false
deriving DecidableEq, Repr, Inhabited

/-- The stream that an IDE_KM exchange sets up, of the function or of the link, and the keys that it agrees (R483). -/
structure IdeSetup where
  link : Bool := false
  key : Nat := 0
deriving DecidableEq, Repr, Inhabited

/-- The DOE mailbox that a data object goes to, by its function, and the object's type (R482): 0 discovery, 1 CMA/SPDM, 2
secured CMA/SPDM. -/
structure DoeTo where
  fn : Nat
  ty : Nat := 1
deriving DecidableEq, Repr, Inhabited

/-- An access of a source that one controller serves (R251, R256): the source and the sector or address. -/
structure SrcAt where
  c : Src
  n : Nat
deriving DecidableEq, Repr

/-- What a stack shows at a refresh (R275): its temperature in °C, and the symbols that its cells have lost since the last one,
by sector, codeword position and error value (R262). -/
structure Cells where
  temp : Nat := 0
  lost : List (Nat × Nat × Nat) := []
deriving DecidableEq, Repr, Inhabited

/-- What the outside answers to a device-initiated host access (R479). -/
inductive HostAns where
  | data (bytes : List Nat)
  | observed
  | unsupported
  | abort
  | poison
deriving DecidableEq, Repr

/-- A fabric packet (R316, R317): its header fields, the body of a control packet and the bytes of a data packet. `axis` is
the stage axis of the queue that made it, which only the injecting router reads (R390): 0 none, 1 X to 4 W. `inPort` is
where the packet entered this device, for the paths of R21: port 0 to 7, 8 + u for unit u, or 40 + 4 × die + row for the stop of
an HBM stack. -/
structure Pkt where
  dest : Nat := 0
  src : Nat := 0
  typ : Nat := 0
  cls : Nat := 0
  esc : Bool := false
  last : Bool := false
  ssp : Bool := false
  sstep : Nat := 0
  xfer : Nat := 0
  collar : Nat := 0
  addr : Nat := 0
  len32 : Nat := 0
  status : Nat := 0
  hops : Nat := 0
  tie : Nat := 0
  dl : Nat := 0
  ut : Nat := 0
  ssax : Nat := 0
  bmask : Nat := 0xFFFFFFFF
  itime : Nat := 0
  fep : Nat := 0
  faddr : Nat := 0
  axis : Nat := 0
  inPort : Nat := 0
  body : List Nat := []
  data : List Nat := []
deriving DecidableEq, Repr, Inhabited

/-- The payload of one flit (R315): the flit tag, the packet header in a head flit, the data bytes in a body flit. `via` is no
part of it on the wire: for a flit that waits to be injected again (R335), the input VC, plus 1, whose later flits belong to
the same packet. -/
structure Payload where
  vc : Nat := 31
  head : Bool := false
  tail : Bool := false
  abort : Bool := false
  fidx : Nat := 0
  hdr : Option Pkt := none
  data : List Nat := []
  via : Nat := 0
deriving DecidableEq, Repr, Inhabited

/-- What the tests of a boot find (R25, R272, R495, R498): the failure code of R498 of a test that fails (0 when all pass),
the failed channels of the bridges (bridge, channel) and the failing pins of the stacks (stack, pseudo-channel, pin); and the
levels of the position straps at that moment, where they are not those that the board ties (R549). -/
structure Boot where
  code : Nat := 0
  chans : List (Nat × Nat) := []
  pins : List (Nat × Nat × Nat) := []
  straps : Option Nat := none
deriving DecidableEq, Repr, Inhabited

/-- The notices that null flits carry (R298, R299). -/
inductive LinkNotice where
  | none
  | degrade (mask : Nat)
  | restore (mask : Nat)
deriving DecidableEq, Repr, Inhabited

/-- One flit (R282): header fields, payload in the clear, tag byte and CRC as they stand on the wire, the frame counter that
its frame was sent under, and whether later flits of its frame still decide the tag. `crcOk` says whether the flit arrives
with a matching CRC and `fecBad` whether it overlaps an uncorrectable codeword; `fecCorr` and `fecUnc` count the corrected
and uncorrectable codewords that end in it, and `laneErr` the corrected symbol errors by lane (R281). -/
structure Flit where
  seq : Nat := 0
  ack : Nat := 0
  slot : Nat := 8
  kph : Nat := 0
  pad : Bool := false
  isNull : Bool := false
  fpos : Nat := 0
  frame : Nat := 0
  nak : Bool := false
  tagb : Nat := 0
  tagOpen : Bool := false
  crc : Nat := 0
  crcOk : Bool := true
  fecBad : Bool := false
  fecCorr : Nat := 0
  fecUnc : Nat := 0
  laneErr : List Nat := []
  payload : Payload := {}
  linkNotice : LinkNotice := .none
deriving DecidableEq, Repr, Inhabited

end Sys2Proof
end

