-- ==== Sys2Proof/Syntax.lean ====
section
/-! DEFINITION. The commands of the device: one constructor for each row of the opcode table, with the row's operands. A
queue is named by its kind and its tile or pack, a tile by its flat number, a port by its index, a partition or LD by its
number; `c` is the source of an access, with its Collar. Where a row is an event whose outcome the manual leaves to the
hardware or to the other side (a tag that matches, an answer, a sample), the outcome is an operand. -/

namespace Sys2Proof

inductive Instr where
  /-- NOP (R211): A NOP command issues and retires in order and does no work. -/
  | nop (q : QId)
  /-- MMA (R177): A matrix command runs one pass of one K block per repeat on the array into an accumulator bank.
  Operands: the tile and the number of repeats that issue. -/
  | mma (t n : Nat)
  /-- MMA_LB (R181): A low-bit matrix command runs passes on the low-bit lanes of an index-8 tile. Operands: the tile and
  the number of repeats that issue. -/
  | mmaLb (t n : Nat)
  /-- VOP (R186): A vector command performs one FP32 operation on every lane of V vectors per repeat. Operands: the tile
  and the number of repeats that issue. -/
  | vop (t n : Nat)
  /-- VTR (R189): A vector command evaluates one transcendental function per lane. Operands: the tile and the number of
  repeats that issue. -/
  | vtr (t n : Nat)
  /-- VCVT (R193): A vector command converts vectors between formats, including the drain of a bank. Operands: the tile
  and the number of repeats that issue. -/
  | vcvt (t n : Nat)
  /-- VRES (R197): A vector command performs the fused residual add with an FP32 output and a narrow output. Operands:
  the tile and the number of repeats that issue. -/
  | vres (t n : Nat)
  /-- AGLD (R199): A command writes one register of one address generator, or clears its FIFO. Operands: the tile and the
  number of repeats that issue. -/
  | agld (t n : Nat)
  /-- MOVE (R201): A command copies bytes within the board through the pack switch and the fabric. -/
  | move (q : QId)
  /-- RCOPY (R203): A command copies bytes through one of the pack's Retrievers, with one side on the issuing device. -/
  | rcopy (q : QId)
  /-- COLL (R205): A group-queue command starts one collective per repeat from its descriptors. -/
  | coll (q : QId)
  /-- SIGNAL (R206): A command adds to a sync counter, sends an MSI-X vector or writes a word to host memory. -/
  | signal (q : QId)
  /-- WAIT (R207): A command holds its queue until a counter of its pack reaches a threshold, and may consume it. -/
  | wait (q : QId)
  /-- SKIP_IF (R208): A command reads a counter and retires the next NSKIP commands without work when the condition
  holds. -/
  | skipIf (q : QId)
  /-- OVERLAY (R209): A command requests a switch of the partition to a stored overlay. -/
  | overlay (q : QId)
  /-- PHASE (R210): A command sets the queue's phase at its retirement. -/
  | phase (q : QId)
  /-- MARK (R211): A command writes one trace record with its tag, class, queue and fabric time. -/
  | mark (q : QId)
  /-- SAVE (R212): A CQ command writes the tile's save record to HBM. -/
  | save (t : Nat)
  /-- RESTORE (R214): A CQ command reads and loads a save record into the tile's accumulators and address generators. -/
  | restore (t : Nat)
  /-- SCALED_REPLAY (R66): after an overflow, the bank is restored from the shadow plane and the command runs again with
  lowered scales. -/
  | scaledReplay (t : Nat)
  /-- MOVI (R154): an address-program instruction loads an immediate into a register. Operands: the tile and its address
  generator. -/
  | movi (t ag : Nat)
  /-- ADDI (R154): an address-program instruction adds a signed immediate to a register. Operands: the tile and its
  address generator. -/
  | addi (t ag : Nat)
  /-- ADD (R154): an address-program instruction adds two registers. Operands: the tile and its address generator. -/
  | add (t ag : Nat)
  /-- PUSH (R154): an address-program instruction pushes a register into the AG FIFO and advances it. Operands: the tile
  and its address generator. -/
  | push (t ag : Nat)
  /-- LOOP (R154): an address-program instruction runs the next len words count times. Operands: the tile and its address
  generator. -/
  | loop (t ag : Nat)
  /-- PROGRAM_HALT (R154): an address-program HALT, or a reserved or illegal instruction, stops the program. Operands:
  the tile and its address generator. -/
  | programHalt (t ag : Nat)
  /-- ISSUE_BLOCK_START (R141): the first repeat of a CQ issue block issues once the drain cycle, the prefetch and the
  release conditions are met. -/
  | issueBlockStart (t : Nat)
  /-- FETCH (R133): A ring fetch of eight slots completes and delivers commands, or faults the queue with FETCH_ERR; one
  from a ring in host memory goes to the host port, whose answer completes it. Operands: the queue, and the symbols that
  are wrong in the read of a ring in HBM: sector 0 to 7 of the eight slots, position and error value. -/
  | fetch (q : QId) (upset : List (Nat × Nat × Nat))
  /-- COMMAND_RETIRE (R147): A command whose work is complete and whose predecessors have retired retires, signals and
  raises its event. -/
  | commandRetire (q : QId)
  /-- SEQ_FAULT (R166): A refused command is reported once every earlier command has retired, setting FAULT and raising
  the event. -/
  | seqFault (q : QId)
  /-- SEQ_BREAK (R159): A count or tag break holds the queue before a command once every earlier command has retired. -/
  | seqBreak (q : QId)
  /-- SEQ_QCTRL_EN (R167): A write of EN enables a queue or clears it, abandoning the queue before the next command.
  Operands: the source, the queue and the whole word written to SEQ_QCTRL. -/
  | seqQctrlEn (c : Src) (q : QId) (v : Nat)
  /-- HALT (R167): A write of HALT holds the queue before its next command, or releases it. Operands: the source, the
  queue and the value of HALT. -/
  | halt (c : Src) (q : QId) (v : Nat)
  /-- RESUME (R166): A write of RESUME resumes a queue held by a break or fault, retrying the held command. -/
  | resume (c : Src) (q : QId)
  /-- SKIP (R166): A write of RESUME with SKIP retires the held command without work, signal or event. -/
  | skip (c : Src) (q : QId)
  /-- SEQ_QTAIL (R132): A write of TAIL publishes commands, or is discarded and faults the queue with OVERRUN. Operands:
  the source, the queue and the new TAIL. -/
  | seqQtail (c : Src) (q : QId) (v : Nat)
  /-- PREEMPT (R160): A write of SEQ_TCTRL.PREEMPT stops the tile at the next repeat boundary and starts its save. -/
  | preempt (c : Src) (t : Nat)
  /-- PREEMPT_SAVE_DONE (R160): the save record of a preempted tile is fully written; PREEMPT clears and SAVED is set. -/
  | preemptSaveDone (t : Nat)
  /-- TILE_RESTORE (R164): A write of SEQ_TCTRL.RESTORE reads and checks a save record into a tile. -/
  | tileRestore (c : Src) (t : Nat)
  /-- TILE_RESTORE_DONE (R164): A restore completes and CQ issues the interrupted command's remaining repeats as a new
  block. -/
  | tileRestoreDone (t : Nat)
  /-- PACK_PREEMPT (R165): A write of SEQ_PCTRL.PREEMPT stops GQ and PMQ once their commands in progress retire. -/
  | packPreempt (c : Src) (p : Nat)
  /-- PACK_RESUME (R165): A write of SEQ_PCTRL.RESUME resumes preempted GQ and PMQ at their HEAD. -/
  | packResume (c : Src) (p : Nat)
  /-- AG_FIFO (R152): A register write pushes one repeat base into an AG FIFO, or is discarded when it is full. Operands:
  the source, the tile, its address generator and the base. -/
  | agFifo (c : Src) (t ag v : Nat)
  /-- COUNTER_ADD (R222): an add reaches a sync counter and is applied with saturation, then the registered waits are
  examined. Operands: the counter by its pack and index, and what is added. -/
  | counterAdd (p idx n : Nat)
  /-- COUNTER_SET (R222): A store to VALUE sets a sync counter, then the registered waits are examined. Operands: the
  counter by its pack and index, and its new value. -/
  | counterSet (p idx n : Nat)
  /-- LEASH_FIRE (R238): A queue's Leash reaches its limit, sets FIRED, raises SYNC_LEASH, may stop the partition and
  starts a Howl. -/
  | leashFire (q : QId)
  /-- HOWL (R249): A write of SYNC_CTRL.HOWL requests a Howl of the partition. -/
  | howl (c : Src) (p : Nat)
  /-- HOWL_DONE (R242): the writer finishes a Howl, writes its header, increments SYNC_HOWLCNT and raises SYNC_HOWL. -/
  | howlDone (k : Nat)
  /-- LOAD (R35): A load through a local or board address is checked and served locally or through the fabric. Operands:
  the source, the address and the number of bytes. -/
  | load (c : Src) (a n : Nat)
  /-- STORE (R35): A store through a local or board address is checked and served locally or through the fabric.
  Operands: the source, the address and the bytes. -/
  | store (c : Src) (a : Nat) (bytes : List Nat)
  /-- REG_WRITE (R34): A write to a register without behaviour of its own takes effect at the register's stop. Operands:
  the source, the local address, the size of 4 or 8 bytes and the value. -/
  | regWrite (c : Src) (a size v : Nat)
  /-- REG_READ_CLEAR (R15): A read of an RC register returns its value and clears it. Operands: the source, the local
  address and the size of 4 or 8 bytes. -/
  | regReadClear (c : Src) (a size : Nat)
  /-- HBM_READ (R256): A controller reads and decodes a sector, correcting or reporting MEM_UE. Operands: the source with
  the sector, and the symbols that are wrong in this read: position and error value. -/
  | hbmRead (x : SrcAt) (upset : List (Nat × Nat))
  /-- HBM_WRITE (R255): A controller writes a whole sector, or merges a partial write indivisibly. Operands: the source
  with the address, and the bytes, which lie in one sector. -/
  | hbmWrite (x : SrcAt) (bytes : List Nat)
  /-- SCRUB_READ (R267): the patrol scrub reads the next sector at its paced rate and writes back or logs it. Operands:
  the stack, and the symbols that are wrong in this read. -/
  | scrubRead (h : Nat) (upset : List (Nat × Nat))
  /-- HBMC_SCRUB_NOW (R268): A write of NOW starts an immediate scrub pass. -/
  | hbmcScrubNow (c : Src) (h : Nat)
  /-- REMAP_REQ (R269): A write of HBMC_REMAPc.REQ starts a remap of a pin or sets REFUSED. Operands: the source, the
  stack, the pseudo-channel and the pin. -/
  | remapReq (c : Src) (h pc pin : Nat)
  /-- REMAP_PASS_STEP (R270): the remap pass rewrites the next sector with SP carrying the remapped pin's symbol. -/
  | remapPassStep (h pc : Nat)
  /-- REFRESH (R275): A controller refreshes its stack bank by bank at an interval set by temperature. Operands: the
  stack, and what it shows. -/
  | refresh (h : Nat) (x : Cells)
  /-- ZERO_FILL_DONE (R274): the zero fill of a new partition's stacks completes and HBMC_DOMAIN.VALID is set. -/
  | zeroFillDone
  /-- FLIT (R283): A flit arrives and is checked by CRC, acknowledged, held or discarded with NAK. -/
  | flit (n : Nat) (f : Flit)
  /-- FRAME (R292): A frame of 16 flits is authenticated and its packets are passed to the router, or the link goes down
  with AUTH. Operands: the port, the slot, and whether the tag matched. -/
  | frame (n slot : Nat) (ok : Bool)
  /-- PAD (R290): A frame open for PAD_NCLK is completed with pad flits. -/
  | pad (n slot : Nat)
  /-- ACK_TIMEOUT (R288): the oldest flit in the retry buffer waits 5 µs without ACK and the direction is declared
  failed. -/
  | ackTimeout (n : Nat)
  /-- NO_SIGNAL (R288): no good flit arrives for 5 µs and the direction is declared failed. -/
  | noSignal (n : Nat)
  /-- LANE_BAD (R298): A receiver marks a lane bad and narrows the direction under a new mask. -/
  | laneBad (n lane : Nat)
  /-- DEGRADE_NOTICE (R298): A DEGRADE notice arrives and the sender switches its striping to the new mask. -/
  | degradeNotice (n mask : Nat)
  /-- RESTORE_POSSIBLE (R299): background retraining finds a wider mask possible and a RESTORE notice is sent. Operands:
  the port and the mask of lanes that retraining found good. -/
  | restorePossible (n lanes : Nat)
  /-- RESTORE_NOTICE (R299): A RESTORE notice arrives and the sender widens its striping as for a degrade. -/
  | restoreNotice (n mask : Nat)
  /-- SIGNAL_DETECT (R300): at least 6 lanes show signal and the port leaves DETECT for PHY_TRAIN. -/
  | signalDetect (n : Nat)
  /-- PHY_TRAIN_DONE (R300): per-lane equalisation completes and the port enters ALIGN. Operands: the port and the hop
  count of the training patterns. -/
  | phyTrainDone (n hops : Nat)
  /-- ALIGN_DONE (R300): FEC lock, deskew and the lane mask complete and the port enters IDENT. Operands: the port, the
  mask of good receive lanes and the transmit mask that the peer chose. -/
  | alignDone (n good tx : Nat)
  /-- IDENTITY_RECORD (R303): A peer's identity record arrives and is checked, holding the link or continuing to AUTH. -/
  | identityRecord (n : Nat) (bytes : List Nat)
  /-- AUTH_DONE (R300): both Kennels complete certificates, ECDH and key installation and the port enters CONFIRM.
  Operands: the port, and whether the certificate chain of the peer leads to the manufacturer's root (R438). -/
  | authDone (n : Nat) (ok : Bool)
  /-- CONFIRM_DONE (R300): A slot-8 frame is authenticated in each direction and the link becomes ACTIVE. -/
  | confirmDone (n : Nat)
  /-- TRAIN_TIMEOUT (R300): A training limit passes and the link fails with TRAIN_TIMEOUT. -/
  | trainTimeout (n : Nat)
  /-- BACKOFF_EXPIRY (R311): the BACKOFF wait ends and the link returns to DETECT. -/
  | backoffExpiry (n : Nat)
  /-- ACTIVE_10S (R311): A link stays ACTIVE for 10 s and its backoff wait returns to 1 ms. -/
  | active10s (n : Nat)
  /-- HELD_SIGNAL_RETURN (R307): signal returns after at least 2 s of loss and a held link goes to DETECT. Operands: the
  port and for how many ms the signal was absent. -/
  | heldSignalReturn (n ms : Nat)
  /-- RETRAIN (R308): A write of LNK_CTRL.RETRAIN takes the link down with HOST and restarts it at DETECT. -/
  | retrain (c : Src) (n : Nat)
  /-- DISABLE (R308): A write of LNK_CTRL.DISABLE holds the port in DISABLED, or releases it. Operands: the source, the
  port and the value of DISABLE. -/
  | disable (c : Src) (n v : Nat)
  /-- REKEY_REQ (R294): A write of LNK_REKEY.REQ starts a rekey of the link. -/
  | rekeyReq (c : Src) (n : Nat)
  /-- REKEY_THRESHOLD (R294): A frame counter reaches 2^THR_LOG2 and a rekey starts. -/
  | rekeyThreshold (n : Nat)
  /-- KEYX (R294): A key-exchange packet of a rekey or training arrives in slot 8. -/
  | keyx (n : Nat) (p : Pkt)
  /-- REKEY_DONE (R294): A rekey completes and each slot switches key phase at its next frame start. -/
  | rekeyDone (n : Nat)
  /-- FRAME_COUNTER_LIMIT (R296): A slot's frame counter reaches 2^48 and the slot stalls until a new key phase. -/
  | frameCounterLimit (n slot : Nat)
  /-- PORTS_READY (R310): kennel reports the ports ready and Shepherd opens the through-paths. -/
  | portsReady
  /-- HEAD_FLIT (R323): A head flit reaches the front of its VC and the router computes its route, side step or discard.
  Operands: the input port, 8 for injection, and the VC. -/
  | headFlit (port vc : Nat)
  /-- ESC_WAIT (R325): A packet waits ESC_WAIT NCLK without a grant and moves to the escape VC. Operands: the input port,
  8 for injection, and the VC. -/
  | escWait (port vc : Nat)
  /-- CREDIT (R321): A CREDIT packet arrives and returns credits to the sender. -/
  | credit (n : Nat) (p : Pkt)
  /-- CREDIT_RETURN_DELAY (R321): 128 NCLK pass after the first pending credit return and a CREDIT packet is sent. -/
  | creditReturnDelay (n vc : Nat)
  /-- LSTATE (R560): an LSTATE notice arrives and updates the link-state map and is flooded. -/
  | lstate (n : Nat) (p : Pkt)
  /-- NOTICE (R335): A NOTICE with the expected sequence number reaches the upstream end, which re-injects its retry
  buffer. -/
  | notice (n : Nat) (p : Pkt)
  /-- NOTICE_WAIT (R336): no NOTICE arrives within NOTICE_WAIT and the retry buffer is discarded with LOST packets. -/
  | noticeWait (n : Nat)
  /-- RD (R317): A read request packet arrives and is served, with RD_DATA or an ACK carrying an error. -/
  | rd (p : Pkt)
  /-- RD_DATA (R332): read data arrives and its bytes are accounted to the transfer. -/
  | rdData (p : Pkt)
  /-- WR (R332): A write packet arrives, is written and acknowledged at its tail. -/
  | wr (p : Pkt)
  /-- ACK (R332): an acknowledgment arrives and accounts its bytes and status to the transfer. -/
  | ack (p : Pkt)
  /-- SYNC (R317): A sync packet arrives and its add or set is checked and passed to the counter. -/
  | sync (p : Pkt)
  /-- RD_FWD (R318): A forward-read packet arrives and the data is sent as FWD_DATA to the forward endpoint. -/
  | rdFwd (p : Pkt)
  /-- FWD_DATA (R318): forwarded data arrives, is written and acknowledged to the original issuer. -/
  | fwdData (p : Pkt)
  /-- LOST (R336): A LOST packet arrives and accounts undelivered bytes with LINK_LOST. -/
  | lost (p : Pkt)
  /-- XFER_TIMEOUT (R333): A transfer is not complete after XFER_TO ms and completes with XFER_TIMEOUT. -/
  | xferTimeout (id : Nat)
  /-- TELEM_RQ (R339): A telemetry request arrives and is answered with TELEM_RP or discarded. -/
  | telemRq (p : Pkt)
  /-- TELEM_RP (R481): A telemetry reply arrives and its counters are placed in CXLP_TELDATA. -/
  | telemRp (p : Pkt)
  /-- HIST_SAMPLE (R338): every PERIOD NCLK the occupancy histograms of each VC are sampled. -/
  | histSample
  /-- RTE_TSNAP (R338): fabric time reaches RTE_TSNAP and all telemetry counters are copied to the snapshot bank. -/
  | rteTsnap
  /-- TIME_EXCHANGE (R420): every 10 µs an active link sends TIME packets in both directions. -/
  | timeExchange (n : Nat)
  /-- TIME (R420): A TIME packet arrives and the link delay and offset from the parent are updated. Operands: the port
  and the four stamps of the exchange in ps. -/
  | time (n t1 t2 t3 t4 : Nat)
  /-- LOCKED (R421): the offset stays below 2 ns for 1 ms and the device becomes LOCKED. -/
  | locked
  /-- RELOCK (R421): A write of RELOCK permits one forward step of the time counter. -/
  | relock (c : Src)
  /-- TRC_TSET (R421): A write of TRC_TSET sets the master's time before its first lock. -/
  | trcTset (c : Src) (v : Nat)
  /-- RETRIEVER_START (R204): A Retriever becomes free and takes the next waiting RCOPY in order of arrival. -/
  | retrieverStart (p n : Nat)
  /-- CONTEXT_OPEN (R358): A COLL repeat opens the lowest free collective context and applies the opening checks. -/
  | contextOpen (k : Nat)
  /-- STAGE_BEGIN (R362): A member completes a stage and begins the next with credit requests. -/
  | stageBegin (k ctx : Nat)
  /-- C_REQ (R359): A credit request arrives and is granted, held, refused or found mismatched. -/
  | cReq (p : Pkt)
  /-- C_REQ_RETRY (R359): RETRY_US passes after a RETRY grant and the credit request is sent again. -/
  | cReqRetry (k ctx : Nat)
  /-- C_GRANT (R362): A grant arrives with the receiver's context, endpoint and initial credit, or an error status. -/
  | cGrant (p : Pkt)
  /-- C_DATA (R363): collective data arrives in the window and is reduced, forwarded or written to DST. -/
  | cData (p : Pkt)
  /-- C_TOKEN (R356): A barrier token arrives and the next step's token is sent. -/
  | cToken (p : Pkt)
  /-- C_CREDIT (R362): A credit return arrives and frees window space for the sender. -/
  | cCredit (p : Pkt)
  /-- C_ABORT (R370): an abort arrives and completes the open context with the carried status, or is held. -/
  | cAbort (p : Pkt)
  /-- COLL_CTRL_ABORT (R377): A write of COLL_CTRL.ABORT aborts open contexts with ABORTED. Operands: the source, the
  pack and the mask of contexts. -/
  | collCtrlAbort (c : Src) (p mask : Nat)
  /-- OVERLAY_LOAD (R393): A write of SHAPE_OVCTRL.LOAD checks and stores the overlay in the staging window. -/
  | overlayLoad (c : Src) (k id : Nat)
  /-- OVERLAY_DROP (R394): A write of SHAPE_OVCTRL.DROP removes a stored overlay unless it is pending. -/
  | overlayDrop (c : Src) (k id : Nat)
  /-- OVERLAY_ARRIVAL (R395): A participating queue arrives at its OVERLAY once its earlier work allows. -/
  | overlayArrival (q : QId)
  /-- OVERLAY_READY (R404): the OVERLAY of a queue becomes ready after release and, in a GQ, after earlier collectives
  complete. -/
  | overlayReady (q : QId)
  /-- CLOSE (R407): A write of CEN_PCTRL.CLOSE closes the partition's phase records. -/
  | close (c : Src) (k : Nat)
  /-- NFCLR (R423): A write of CEN_PCTRL.NFCLR clears the sticky NAN and INF flags. -/
  | nfclr (c : Src) (k : Nat)
  /-- GET_INFO (R458): A mailbox command returns the device's identity, grade, stepping, versions and levels. -/
  | getInfo
  /-- GET_CERT (R458): A mailbox command returns part of the slot-0 certificate chain. -/
  | getCert
  /-- GET_MEAS (R458): A mailbox command returns one measurement. -/
  | getMeas
  /-- ENROLL_OPKEY (R440): A mailbox command writes an operator key into a fuse slot. -/
  | enrollOpkey
  /-- REVOKE_OPKEY (R440): A mailbox command revokes an operator key. -/
  | revokeOpkey
  /-- LOAD_BASE (R384): A mailbox command checks and applies a base image and creates its partitions. -/
  | loadBase
  /-- PART_REQ (R443): A mailbox command checks a partition request and creates or tears down a partition. -/
  | partReq
  /-- DEBUG_CHALLENGE (R451): A mailbox command returns a fresh debug nonce. -/
  | debugChallenge
  /-- DEBUG_UNLOCK (R451): A mailbox command verifies a debug token and enters the debug state. -/
  | debugUnlock
  /-- FW_BEGIN (R505): A mailbox command discards any staged image and starts receiving a firmware image. -/
  | fwBegin
  /-- FW_BLOCK (R505): A mailbox command fetches one image block from host memory and checks its CRC. Operands: the
  host's answer to the read of the block. -/
  | fwBlock (ans : HostAns)
  /-- FW_VERIFY (R506): A mailbox command checks the staged image and returns its digest. -/
  | fwVerify
  /-- FW_ACTIVATE (R507): A mailbox command programs the verified image into the boot flash and blows fuse steps.
  Operands: whether the readback of the programmed flash matched, at once and at the second attempt. -/
  | fwActivate (ok1 ok2 : Bool)
  /-- FW_ABORT (R504): A mailbox command aborts a firmware update. -/
  | fwAbort
  /-- FW_STATUS (R504): A mailbox command returns the update state and image versions. -/
  | fwStatus
  /-- KNL_DONE (R456): A running mailbox command finishes, sets DONE and RESULT and raises KNL_DONE. -/
  | knlDone
  /-- DOZE (R520): A Shepherd command takes the device into Doze, or is refused with BUSY. -/
  | doze (c : Src)
  /-- STANDBY (R530): A Shepherd command takes the device into Standby and loses HBM contents. -/
  | standby (c : Src)
  /-- POWER_CYCLE (R530): A Shepherd command starts a power-on reset. Operands: the source, and what the boot's own tests
  find (R498). -/
  | powerCycle (c : Src) (code : Boot)
  /-- SHP_RESET (R530): A Shepherd command starts a Shepherd reset. -/
  | shpReset (c : Src)
  /-- SHP_HBEAT (R529): A host heartbeat write restarts the host timer of the device-level Leash. -/
  | shpHbeat (c : Src) (v : Nat)
  /-- DEVICE_LEASH_KNL (R529): the Kennel heartbeat timer reaches LIMIT; Howls are written and a power-on reset may
  follow. Operands: what the boot's own tests find, when a power-on reset follows. -/
  | deviceLeashKnl (code : Boot)
  /-- DEVICE_LEASH_HOST (R529): the host heartbeat timer reaches LIMIT; Howls are written and every queue is halted. -/
  | deviceLeashHost
  /-- HOSTCAP (R514): A write of PMU_THROT.HOSTCAP changes the requested throttle level of a die. -/
  | hostcap (c : Src) (d v : Nat)
  /-- THROTTLE_RAMP (R514): the applied throttle level moves one step toward the request. -/
  | throttleRamp (d : Nat)
  /-- POWER_SAMPLE (R515): every 1 µs a PMU measures die power and adjusts the power-limit level. -/
  | powerSample (d watts : Nat)
  /-- PARTITION_IDLE (R518): A partition idle for DELAY µs has its ACLK and SCLK gated. -/
  | partitionIdle (k : Nat)
  /-- SENSOR_SAMPLE (R524): A sensor is sampled, averaged and compared, raising or clearing its alarm and actions.
  Operands: the sensor, its sample, and what the boot's own tests find when a wake follows. -/
  | sensorSample (sensor v : Nat) (code : Boot)
  /-- SHP_SCFG (R524): A write of a sensor configuration refills its averaging window. -/
  | shpScfg (c : Src) (sensor v : Nat)
  /-- ANALOG_TRIP (R527): the analog thermal trip of the always-on island fires at 120 °C and shuts down the device. -/
  | analogTrip
  /-- PLL_LOSS (R516): A root PLL loses lock or the reference is lost; clocks stop and a power-on reset starts. Operands:
  the die, and what the boot's own tests find. -/
  | pllLoss (d : Nat) (code : Boot)
  /-- BRIDGE_FAIL (R538): A bridge channel fails in service; the bridge leaves service, all compute halts and Howls are
  written. Operands: the bridge and its channel. -/
  | bridgeFail (b ch : Nat)
  /-- WAKE (R521): WAKE# is asserted for 1 µs and an enabled wake from Doze or Standby begins. Operands: what the boot's
  own tests find. -/
  | wake (code : Boot)
  /-- PERST_ASSERT (R490): PERST# is asserted while 12 V is present and a warm reset begins. -/
  | perstAssert
  /-- PERST_DEASSERT (R490): PERST# is deasserted; the warm reset completes its remaining steps, or a wake begins.
  Operands: what the boot's own tests find. -/
  | perstDeassert (code : Boot)
  /-- HOT_RESET (R490): A CXL hot reset is received and a warm reset begins. Operands: what the boot's own tests find. -/
  | hotReset (code : Boot)
  /-- SHP_RST (R487): the SHP_RST# land is held low for 10 µs and a Shepherd reset begins. -/
  | shpRst
  /-- SHEPHERD_HEARTBEAT_FAIL (R487): shepherd's own firmware heartbeat fails and a Shepherd reset begins. -/
  | shepherdHeartbeatFail
  /-- STANDBY_RAIL_RISE (R546): P3V3SB rises into range and a Shepherd reset begins with AUTO set. Operands: what the
  boot's own tests find. -/
  | standbyRailRise (code : Boot)
  /-- STANDBY_RAIL_LOSS (R546): P3V3SB stays below 2.9 V for 10 µs and the device goes Off. -/
  | standbyRailLoss
  /-- P12V_LOSS (R522): P12V stays below 11.0 V for 10 µs and the device goes to Standby. -/
  | p12vLoss
  /-- P12V_IN_TOLERANCE (R522): P12V enters tolerance and, with AUTO set, a power-on reset begins. Operands: what the
  boot's own tests find. -/
  | p12vInTolerance (code : Boot)
  /-- CXL_LINK_UP (R462): the host link enters CXL operation and records direct or switched mode. Operands: the codes of
  CXLP_LSTAT. -/
  | cxlLinkUp (rate width mode reason : Nat)
  /-- CXL_LINK_DOWN (R492): the host link goes down, ending IDE streams and failing device accesses in flight. -/
  | cxlLinkDown
  /-- CONFIG_REQUEST (R463): A configuration request reaches an LD or the FMLD and is answered. Operands: the function, 8
  for the FMLD; write or read; register and value; whether it came in its IDE stream. -/
  | configRequest (n : Nat) (isWrite : Bool) (reg v : Nat) (ide : Bool)
  /-- BAR0_ACCESS (R467): A host access through BAR0 reaches register space or component registers. Operands: the
  function, write or read, offset, size in bytes, value, IDE stream. -/
  | bar0Access (n : Nat) (isWrite : Bool) (off size v : Nat) (ide : Bool)
  /-- BAR2_ACCESS (R467): A host access through BAR2 reaches scratch, pack buffers or sync counters. Operands: the
  function, write or read, offset, size, bytes to write, IDE stream. -/
  | bar2Access (n : Nat) (isWrite : Bool) (off size : Nat) (bytes : List Nat) (ide : Bool)
  /-- DOORBELL (R468): A host doorbell write adds to a sync counter, or a read returns its value. Operands: the function,
  write or read, offset in BAR4 below the Howl window (the MSI-X table, its pending bits and the reserved offsets
  included), size, value, IDE stream. -/
  | doorbell (n : Nat) (isWrite : Bool) (off size v : Nat) (ide : Bool)
  /-- HOWL_WINDOW_WRITE (R469): A host write to the Howl window is discarded and logged with DENIED. Operands: the
  function, write or read, first byte in the window, size, IDE stream. -/
  | howlWindowWrite (n : Nat) (isWrite : Bool) (x size : Nat) (ide : Bool)
  /-- CXL_MEM_READ (R472): A host CXL.mem read is decoded through the HDM decoder to partition HBM. -/
  | cxlMemRead (n hpa len : Nat)
  /-- CXL_MEM_WRITE (R472): A host CXL.mem write is decoded through the HDM decoder to partition HBM. -/
  | cxlMemWrite (n hpa : Nat) (bytes : List Nat)
  /-- HDM_COMMIT (R471): the host commits an HDM decoder, which fails when its range exceeds the LD's memory. Operands:
  the LD with the stream of the request, the decoder and its programmed values. -/
  | hdmCommit (n : Via) (dec base size ways gran skip : Nat)
  /-- SNOOP (R477): A host snoop arrives and is answered with RspIHitI. -/
  | snoop
  /-- FUNCTION_LEVEL_RESET (R489): A function-level reset of LDn resets partition PTn while keeping its existence and
  HBM. Operands: the LD with the stream of the request. -/
  | functionLevelReset (n : Via)
  /-- SPDM_REQUEST (R447): an SPDM request through DOE is answered with BAK-signed responses. Operands: the function's
  mailbox with the type of the data object, and its bytes. -/
  | spdmRequest (n : DoeTo) (bytes : List Nat)
  /-- IDE_KM (R483): an IDE_KM exchange in a secured session sets up the keys of an IDE stream. Operands: the function,
  the stream and its keys. -/
  | ideKm (n : Nat) (link : IdeSetup)
  /-- IDE_INTEGRITY_FAILURE (R484): an IDE integrity failure ends the stream and destroys its keys. Operands: the LD, or
  8 for the link stream. -/
  | ideIntegrityFailure (n : Nat)
  /-- IDE_REQ (R485): A write of CXLP_LDCTRL.IDE_REQ requires IDE for the LD's accesses. -/
  | ideReq (c : Src) (n : Nat)
  /-- IDENTIFY (R465): an FM API Identify returns the device identity and 8 LDs. -/
  | identify
  /-- GET_LD_INFO (R465): an FM API Get LD Info returns the LD count and memory sizes. -/
  | getLdInfo
  /-- GET_LD_ALLOCATIONS (R465): an FM API Get LD Allocations returns the LD memory sizes. -/
  | getLdAllocations
  /-- SET_LD_ALLOCATIONS (R465): an FM API Set LD Allocations is answered with Unsupported, and
  so is any FM API command that the table of R465 does not list: the row stands for all of them. -/
  | setLdAllocations
  /-- HOST_RETRIEVER_PIECE (R476): A host-port Retriever takes the next piece of device-initiated host access in round
  robin. -/
  | hostRetrieverPiece
  /-- COMPLETION_TIMEOUT (R479): A device access to host memory is not answered within CTO_US and completes with
  HOST_ERR. -/
  | completionTimeout (piece : Nat)
  /-- MSIX_UNMASK (R479): A masked MSI-X vector is unmasked and its pending message is sent. Operands: the LD with
  the stream of the request, the vector. -/
  | msixUnmask (n : Via) (vec : Nat)
  /-- TELCMD_GO (R481): A write of CXLP_TELCMD.GO sends one telemetry request to a router. -/
  | telcmdGo (c : Src) (ep port vc bank : Nat)
  /-- TELCMD_TIMEOUT (R481): no telemetry reply arrives within 100 µs and ERR is set. -/
  | telcmdTimeout
  /-- HOST_COMPLETION (R479): the host's answer to a device-initiated access arrives: read data, a global-observation
  response, or Unsupported Request, Completer Abort or poison. Operands: the piece and the host's answer. -/
  | hostCompletion (piece : Nat) (ans : HostAns)
  /-- KENNEL_HEARTBEAT (R529): kennel's firmware writes its private heartbeat port and restarts the Kennel timer of the
  device-level Leash. -/
  | kennelHeartbeat
  /-- FLIT_TIME (R329): at each flit time an output port chooses one flit by slot and class arbitration, or a null flit,
  and sends it. -/
  | flitTime (n : Nat)
  /-- RECEIVER_DESKEW (R298): after a degrade or restore, the receiver finds alignment markers on the new active lanes,
  deskews, sets NAK and accepts flits again. -/
  | receiverDeskew (n : Nat)
  /-- TILE_CYCLES_WRAP (R70): TILE_CYCLES.COUNT wraps from 2^48 − 1 to 0 after about 44.7 hours of clocked time and sets
  WRAP. -/
  | tileCyclesWrap (t : Nat)
deriving DecidableEq, Repr

end Sys2Proof
end

