-- ==== Sys2Proof/Decode.lean ====
section
/-! DEFINITION. The reading of table words. spec/opcode_table.json gives none of its rows a bit, so no word spells a command:
commands reach the block as commands, in its queue. -/

namespace Sys2Proof

/-- The command that a word of nbits bits spells by the opcode table: none, for no row has bits. -/
def decodeTableWord (_nbits _w : Nat) : Option Instr := none

end Sys2Proof
end

