-- ==== Sys2Proof/Config.lean ====
section
/-! DEFINITION. What one device fixes and what the manual leaves open. An `opaque` constant has no body: no proof can
see its value, so a statement about it holds whatever it is. -/

namespace Sys2Proof.Config

/-- Output of Kennel's DRBG (R436) for a request, by the number of the seed and of the request under it: nonces, ephemeral
keys, the XTS keys and the BAK. Free values. -/
opaque drbg : Nat → Nat → Nat

/-- The identity key of the device with the given unique ID (R436): its public modulus, and its signature over a digest. -/
opaque identityKey : Nat → Nat
opaque identitySign : Nat → Nat → Nat

/-- The signature with the BAK that a DRBG output gave, over a digest (R447), and the public modulus of that key. -/
opaque bakSign : Nat → Nat → Nat
opaque bakKey : Nat → Nat

/-- What stands in TAGB (R282) of a flit, by port, slot, frame counter and position, while later flits of its frame still
decide the frame's tag (R291). -/
opaque tagByte : Nat → Nat → Nat → Nat → BitVec 8

/-- Byte `k` of the first three certificates of the slot-0 chain of the device with the given unique ID (R446). The manual
gives the chain's order and algorithms, and no certificate's bytes. -/
opaque certByte : Nat → Nat → BitVec 8

/-- Length in bytes of these certificates. -/
opaque certLen : Nat → Nat

/-- Does a peer's certificate chain, given by its bytes, lead to the root whose key has the given SHA-256 digest (R436, R438). -/
opaque chainHolds : List Nat → List Nat → Bool

/-- Byte `k` of the boot attestation certificate that carries a BAK's modulus and a digest of measurements, for a unique ID
(R446), and its length. -/
opaque bootCertByte : Nat → Nat → Nat → Nat → BitVec 8
opaque bootCertLen : Nat → Nat → Nat → Nat

/-- SHA-256 digest, as a number, of Kennel's ROM (measurement 1 of R448). -/
opaque romDigest : Nat

/-- RSA-3072 modulus of the Caereo root key (R436, R446). -/
opaque rootKey : Nat

/-- The KWK that the device with the given unique ID derives from its PUF (R436). -/
opaque kwk : Nat → Nat

/-- RSA-3072 modulus of the Caereo firmware verification key, whose digest stands in Kennel's ROM (R436, R501). -/
opaque firmwareKey : Nat

/-- RSA-3072 modulus of the Caereo debug verification key (R436, R450). -/
opaque debugKey : Nat

/-- The value of a configuration register of a function (0 to 7 an LD, 8 the FMLD) whose contents the manual does not give,
by its offset (R464). -/
opaque cfgWord : Nat → Nat → BitVec 32

/-- The value of a component register of a function whose contents the manual does not give, by its offset in the component
registers of BAR0 (R466). -/
opaque compWord : Nat → Nat → BitVec 32

/-- Bits that the manual leaves open at a named point, drawn by the step's own counter (State.fresh). -/
opaque freeBits : Nat → Nat

end Sys2Proof.Config
end

