-- ==== Sys2Proof/Machine/Fields.lean ====
section
/-! DEFINITION. Every register field of the manual's register tables: its offset within its block, its bits, its access
code (R15) and its reset value, under the manual's own register and field names. A field that stands in a numbered family
of registers takes the family's index. Reset values that depend on the block's index, or that the manual gives as a device
property, are 0 here and are set in State.reset or computed by the view of the register (Regs.lean). -/

namespace Sys2Proof.Machine

/-- The access codes of R15. -/
inductive Access where
  | rw | ro | wo | w1c | w1s | rc | rwl
deriving DecidableEq, Repr

/-- One field of one register: register offset in the block, low bit, width, access code and reset value. -/
structure Field where
  off : Nat
  lo : Nat
  wid : Nat
  acc : Access
  rst : Nat
deriving DecidableEq, Repr

/-! Block tile. -/

def TILE_ID.FLAT : Field := ⟨0x0, 0, 8, .ro, 0⟩
def TILE_ID.INDEX : Field := ⟨0x0, 8, 4, .ro, 0⟩
def TILE_ID.PACK : Field := ⟨0x0, 12, 4, .ro, 0⟩
def TILE_ID.DIE : Field := ⟨0x0, 16, 1, .ro, 0⟩
def TILE_ID.LOWBIT : Field := ⟨0x0, 17, 1, .ro, 0⟩
def TILE_CTRL.CONFLICT_EVT : Field := ⟨0x8, 0, 1, .rw, 0⟩
def TILE_CTRL.ALIGN_EVT : Field := ⟨0x8, 1, 1, .rw, 0⟩
def TILE_CTRL.COLLIDE_EVT : Field := ⟨0x8, 2, 1, .rw, 0⟩
def TILE_CTRL.UNDER_EVT : Field := ⟨0x8, 3, 1, .rw, 0⟩
def TILE_STAT.BANK_CONFLICT : Field := ⟨0x10, 0, 1, .w1c, 0⟩
def TILE_STAT.ALIGN : Field := ⟨0x10, 1, 1, .w1c, 0⟩
def TILE_STAT.AG_UNDER : Field := ⟨0x10, 2, 1, .w1c, 0⟩
def TILE_STAT.NO_LOWBIT : Field := ⟨0x10, 3, 1, .w1c, 0⟩
def TILE_STAT.REPLAY_ACTIVE : Field := ⟨0x10, 4, 1, .ro, 0⟩
def TILE_CYCLES.COUNT : Field := ⟨0x18, 0, 48, .ro, 0⟩
def TILE_CONFLICTS.COUNT : Field := ⟨0x20, 0, 48, .ro, 0⟩
def TILE_CYCLES.WRAP : Field := ⟨0x18, 63, 1, .w1c, 0⟩
def TILE_CONFLICTS.WRAP : Field := ⟨0x20, 63, 1, .w1c, 0⟩
/-! Block ag. -/

def AG_CTRL.MODE : Field := ⟨0x0, 0, 2, .rw, 0⟩
def AG_BASE.BASE : Field := ⟨0x8, 0, 22, .rw, 0⟩
def AG_SCALE.BASE : Field := ⟨0x10, 0, 22, .rw, 0⟩
def AG_ROW.STRIDE : Field := ⟨0x18, 0, 23, .rw, 0⟩
def AG_LOOP.STRIDE (k : Nat) : Field := ⟨0x20 + 8 * k, 0, 23, .rw, 0⟩
def AG_LOOP.COUNT (k : Nat) : Field := ⟨0x20 + 8 * k, 32, 16, .rw, 1⟩
def AG_POS.I (k : Nat) : Field := ⟨0x40, 16 * k, 16, .ro, 0⟩
def AG_CUR.ADDR : Field := ⟨0x48, 0, 22, .ro, 0⟩
def AG_FIFO.BASE : Field := ⟨0x50, 0, 22, .wo, 0⟩
def AG_FIFO_STAT.LEVEL : Field := ⟨0x58, 0, 7, .ro, 0⟩
def AG_FIFO_STAT.OVF : Field := ⟨0x58, 7, 1, .w1c, 0⟩
/-! Block acc. -/

def ACC_FLAGS.NAN (n : Nat) : Field := ⟨8 * n, 0, 1, .w1c, 0⟩
def ACC_FLAGS.OVF (n : Nat) : Field := ⟨8 * n, 1, 1, .w1c, 0⟩
def ACC_FLAGS.SAT (n : Nat) : Field := ⟨8 * n, 2, 1, .w1c, 0⟩
def ACC_FLAGS.RPL (n : Nat) : Field := ⟨8 * n, 3, 1, .w1c, 0⟩
def ACC_FLAGS.COLLIDE (n : Nat) : Field := ⟨8 * n, 4, 1, .w1c, 0⟩
def ACC_STAT.SHADOW_BANK : Field := ⟨0x20, 0, 2, .ro, 0⟩
def ACC_STAT.SHADOW_VALID : Field := ⟨0x20, 2, 1, .ro, 0⟩
def ACC_STAT.LAST_REPLAYS : Field := ⟨0x20, 3, 2, .ro, 0⟩
def ACC_BEXP.D (n : Nat) : Field := ⟨0x28, 8 * n, 6, .ro, 0⟩
/-! Block queue. -/

def SEQ_QCTRL.EN : Field := ⟨0x0, 0, 1, .rw, 0⟩
def SEQ_QCTRL.HALT : Field := ⟨0x0, 1, 1, .rw, 0⟩
def SEQ_QCTRL.RESUME : Field := ⟨0x0, 2, 1, .wo, 0⟩
def SEQ_QCTRL.SKIP : Field := ⟨0x0, 3, 1, .wo, 0⟩
def SEQ_QCTRL.LOC : Field := ⟨0x0, 4, 1, .rw, 0⟩
def SEQ_QCTRL.RING_LOG2 : Field := ⟨0x0, 8, 5, .rw, 7⟩
def SEQ_QBASE.BASE : Field := ⟨0x8, 12, 52, .rw, 0⟩
def SEQ_QTAIL.TAIL : Field := ⟨0x10, 0, 32, .rw, 0⟩
def SEQ_QHEAD.HEAD : Field := ⟨0x18, 0, 32, .rw, 0⟩
def SEQ_QRETIRED.COUNT : Field := ⟨0x20, 0, 64, .ro, 0⟩
def SEQ_QSTAT.IDLE : Field := ⟨0x28, 0, 1, .ro, 1⟩
def SEQ_QSTAT.WAITING : Field := ⟨0x28, 1, 1, .ro, 0⟩
def SEQ_QSTAT.HALTED : Field := ⟨0x28, 2, 1, .ro, 0⟩
def SEQ_QSTAT.BREAK : Field := ⟨0x28, 3, 1, .ro, 0⟩
def SEQ_QSTAT.FAULT : Field := ⟨0x28, 4, 1, .ro, 0⟩
def SEQ_QSTAT.PREEMPTED : Field := ⟨0x28, 5, 1, .ro, 0⟩
def SEQ_QSTAT.FAULT_CODE : Field := ⟨0x28, 8, 8, .ro, 0⟩
def SEQ_QSTAT.TAG : Field := ⟨0x28, 16, 16, .ro, 0⟩
def SEQ_QSTAT.REPEAT_IDX : Field := ⟨0x28, 32, 21, .ro, 0⟩
def SEQ_QBRKCNT.VALUE : Field := ⟨0x30, 0, 64, .rw, 0⟩
def SEQ_QBRKTAG.TAG : Field := ⟨0x38, 0, 16, .rw, 0⟩
def SEQ_QBRKTAG.MASK : Field := ⟨0x38, 16, 16, .rw, 0⟩
def SEQ_QBRKTAG.TAG_EN : Field := ⟨0x38, 32, 1, .rw, 0⟩
def SEQ_QBRKTAG.CNT_EN : Field := ⟨0x38, 33, 1, .rw, 0⟩
/-! Block tileSeq. -/

def SEQ_TCTRL.PREEMPT : Field := ⟨0x1800, 0, 1, .w1s, 0⟩
def SEQ_TCTRL.RESTORE : Field := ⟨0x1800, 1, 1, .w1s, 0⟩
def SEQ_TSAVE.ADDR : Field := ⟨0x1808, 12, 28, .rw, 0⟩
def SEQ_TSTAT.SAVING : Field := ⟨0x1810, 0, 1, .ro, 0⟩
def SEQ_TSTAT.SAVED : Field := ⟨0x1810, 1, 1, .w1c, 0⟩
def SEQ_TSTAT.RESTORING : Field := ⟨0x1810, 2, 1, .ro, 0⟩
def SEQ_TSTAT.RESTORED : Field := ⟨0x1810, 3, 1, .w1c, 0⟩
def SEQ_TSTAT.REC_ERR : Field := ⟨0x1810, 4, 1, .w1c, 0⟩
/-! Block apw. -/

def SEQ_APWORD.WORD (k : Nat) : Field := ⟨4 * k, 0, 32, .rw, 0⟩
def SEQ_APREG.VALUE (k : Nat) : Field := ⟨0x80 + 4 * k, 0, 22, .rw, 0⟩
def SEQ_APSTAT.PC : Field := ⟨0xA0, 0, 5, .ro, 0⟩
def SEQ_APSTAT.RUN : Field := ⟨0xA0, 8, 1, .ro, 0⟩
def SEQ_APSTAT.ERR : Field := ⟨0xA0, 9, 1, .w1c, 0⟩
/-! Block packSeq. -/

def SEQ_PCTRL.PREEMPT : Field := ⟨0x800, 0, 1, .w1s, 0⟩
def SEQ_PCTRL.RESUME : Field := ⟨0x800, 1, 1, .w1s, 0⟩
/-! Block ret. -/

def SEQ_RETSTAT.STATE : Field := ⟨0x0, 0, 3, .ro, 0⟩
def SEQ_RETSTAT.STATUS : Field := ⟨0x0, 8, 8, .ro, 0⟩
def SEQ_RETSTAT.WAITING : Field := ⟨0x0, 16, 6, .ro, 0⟩
def SEQ_RETSTAT.XFER : Field := ⟨0x0, 32, 32, .ro, 0⟩
def SEQ_RETDONE.BYTES : Field := ⟨0x8, 0, 64, .ro, 0⟩
def SEQ_RETTIME.TIME : Field := ⟨0x10, 0, 64, .ro, 0⟩
def SEQ_RETTOTAL.BYTES : Field := ⟨0x18, 0, 64, .ro, 0⟩
def SEQ_RETCMD.WORD (k : Nat) : Field := ⟨0x20 + 8 * k, 0, 64, .ro, 0⟩
/-! Block queue. -/

def SEQ_QLEASH.LIMIT : Field := ⟨0x40, 0, 26, .rw, 1000000⟩
def SEQ_QLEASH.EN : Field := ⟨0x40, 32, 1, .rw, 1⟩
def SEQ_QLEASH.STOP : Field := ⟨0x40, 33, 1, .rw, 0⟩
def SEQ_QLSTAT.ELAPSED : Field := ⟨0x48, 0, 26, .ro, 0⟩
def SEQ_QLSTAT.FIRED : Field := ⟨0x48, 32, 1, .w1c, 0⟩
def SEQ_QLSTAT.RUNNING : Field := ⟨0x48, 33, 1, .ro, 0⟩
/-! Block sync. -/

def SYNC_RANGE.FIRST : Field := ⟨0x0, 0, 10, .rwl, 0⟩
def SYNC_RANGE.LAST : Field := ⟨0x0, 16, 10, .rwl, 0⟩
def SYNC_RANGE.VALID : Field := ⟨0x0, 31, 1, .rwl, 0⟩
def SYNC_CTRL.OVF_EVT : Field := ⟨0x8, 0, 1, .rw, 1⟩
def SYNC_CTRL.HOWL : Field := ⟨0x8, 1, 1, .w1s, 0⟩
def SYNC_STAT.OVF : Field := ⟨0x10, 0, 1, .w1c, 0⟩
def SYNC_STAT.HOWL_BUSY : Field := ⟨0x10, 1, 1, .ro, 0⟩
def SYNC_STAT.HOWL_DONE : Field := ⟨0x10, 2, 1, .w1c, 0⟩
def SYNC_STAT.OVF_IDX : Field := ⟨0x10, 16, 10, .ro, 0⟩
def SYNC_HOWLCNT.COUNT : Field := ⟨0x18, 0, 32, .ro, 0⟩
/-! Block hbmc. -/

def HBMC_ID.STACK : Field := ⟨0x0, 0, 4, .ro, 0⟩
def HBMC_ID.DIE : Field := ⟨0x0, 4, 1, .ro, 0⟩
def HBMC_ID.PCS : Field := ⟨0x0, 8, 8, .ro, 32⟩
def HBMC_ID.GIB : Field := ⟨0x0, 16, 8, .ro, 64⟩
def HBMC_DOMAIN.PART : Field := ⟨0x8, 0, 3, .rwl, 0⟩
def HBMC_DOMAIN.VALID : Field := ⟨0x8, 3, 1, .rwl, 0⟩
def HBMC_DOMAIN.DSIZE : Field := ⟨0x8, 4, 4, .rwl, 0⟩
def HBMC_DOMAIN.DIDX : Field := ⟨0x8, 8, 4, .rwl, 0⟩
def HBMC_DOMAIN.DMASK : Field := ⟨0x8, 12, 12, .rwl, 0⟩
def HBMC_CTRL.CE_EVT : Field := ⟨0x10, 0, 1, .rw, 0⟩
def HBMC_CTRL.AUTO_REMAP : Field := ⟨0x10, 1, 1, .rw, 1⟩
def HBMC_CTRL.REMAP_THR : Field := ⟨0x10, 8, 8, .rw, 8⟩
def HBMC_STAT.FILL_BUSY : Field := ⟨0x18, 0, 1, .ro, 0⟩
def HBMC_STAT.SCRUB_BUSY : Field := ⟨0x18, 1, 1, .ro, 0⟩
def HBMC_STAT.REMAP_BUSY : Field := ⟨0x18, 2, 1, .ro, 0⟩
def HBMC_STAT.TEMP : Field := ⟨0x18, 8, 8, .ro, 0⟩
def HBMC_SCRUB_CTRL.EN : Field := ⟨0x20, 0, 1, .rw, 1⟩
def HBMC_SCRUB_CTRL.NOW : Field := ⟨0x20, 1, 1, .w1s, 0⟩
def HBMC_SCRUB_CTRL.PASS_MIN : Field := ⟨0x20, 16, 16, .rw, 1440⟩
def HBMC_SCRUB_STAT.POS : Field := ⟨0x28, 0, 31, .ro, 0⟩
def HBMC_SCRUB_STAT.PASSES : Field := ⟨0x28, 32, 32, .ro, 0⟩
def HBMC_CE_COUNT.COUNT : Field := ⟨0x30, 0, 48, .rc, 0⟩
def HBMC_UE_COUNT.COUNT : Field := ⟨0x38, 0, 48, .rc, 0⟩
def HBMC_CE_COUNT.SAT : Field := ⟨0x30, 63, 1, .rc, 0⟩
def HBMC_UE_COUNT.SAT : Field := ⟨0x38, 63, 1, .rc, 0⟩
def HBMC_ELOG.SADDR : Field := ⟨0x40, 5, 35, .ro, 0⟩
def HBMC_ELOG.SYM : Field := ⟨0x40, 40, 6, .ro, 0⟩
def HBMC_ELOG.UE : Field := ⟨0x40, 46, 1, .ro, 0⟩
def HBMC_ELOG.SCRUB : Field := ⟨0x40, 47, 1, .ro, 0⟩
def HBMC_ELOG.VALID : Field := ⟨0x40, 63, 1, .w1c, 0⟩
def HBMC_PINCNT.CNT (c : Nat) (p : Nat) : Field := ⟨0x1000 + 0x80 * c + 4 * (p / 2), 16 * (p % 2), 16, .rc, 0⟩
def HBMC_REMAP.PIN (c : Nat) : Field := ⟨0x2000 + 8 * c, 0, 6, .rw, 0⟩
def HBMC_REMAP.REQ (c : Nat) : Field := ⟨0x2000 + 8 * c, 6, 1, .w1s, 0⟩
def HBMC_REMAP.REFUSED (c : Nat) : Field := ⟨0x2000 + 8 * c, 7, 1, .w1c, 0⟩
def HBMC_REMAP.SPIN (c : Nat) : Field := ⟨0x2000 + 8 * c, 8, 6, .ro, 0⟩
def HBMC_REMAP.SPARED (c : Nat) : Field := ⟨0x2000 + 8 * c, 14, 1, .ro, 0⟩
def HBMC_REMAP.BUSY (c : Nat) : Field := ⟨0x2000 + 8 * c, 15, 1, .ro, 0⟩
def HBMC_REMAP.MPIN0 (c : Nat) : Field := ⟨0x2000 + 8 * c, 16, 6, .ro, 0⟩
def HBMC_REMAP.MPIN1 (c : Nat) : Field := ⟨0x2000 + 8 * c, 22, 6, .ro, 0⟩
def HBMC_REMAP.MARKED (c : Nat) : Field := ⟨0x2000 + 8 * c, 28, 2, .ro, 0⟩
/-! Block lnk. -/

def LNK_ID.PORT : Field := ⟨0x0, 0, 3, .ro, 0⟩
def LNK_ID.DIE : Field := ⟨0x0, 3, 1, .ro, 0⟩
def LNK_COORD.COORD : Field := ⟨0x8, 0, 19, .rwl, 0⟩
def LNK_COORD.WSIZE : Field := ⟨0x8, 19, 10, .rwl, 0⟩
def LNK_COORD.WCHAIN : Field := ⟨0x8, 29, 1, .rwl, 0⟩
def LNK_COORD.VALID : Field := ⟨0x8, 31, 1, .rwl, 0⟩
def LNK_CFG.AXIS : Field := ⟨0x10, 0, 2, .rwl, 0⟩
def LNK_CFG.DIR : Field := ⟨0x10, 2, 1, .rwl, 0⟩
def LNK_CFG.AUTO : Field := ⟨0x10, 3, 1, .rwl, 0⟩
def LNK_CFG.MAXW : Field := ⟨0x10, 4, 2, .rwl, 0⟩
def LNK_CFG.EN : Field := ⟨0x10, 6, 1, .rwl, 0⟩
def LNK_CTRL.RETRAIN : Field := ⟨0x18, 0, 1, .w1s, 0⟩
def LNK_CTRL.DISABLE : Field := ⟨0x18, 1, 1, .rw, 0⟩
def LNK_CTRL.AUTO_RESTORE : Field := ⟨0x18, 2, 1, .rw, 1⟩
def LNK_CTRL.IMG_EVT : Field := ⟨0x18, 3, 1, .rw, 0⟩
def LNK_CTRL.PAD_NCLK : Field := ⟨0x18, 8, 8, .rw, 32⟩
def LNK_STAT.STATE : Field := ⟨0x20, 0, 4, .ro, 0⟩
def LNK_STAT.REASON : Field := ⟨0x20, 8, 8, .ro, 0⟩
def LNK_STAT.TXW : Field := ⟨0x20, 16, 2, .ro, 0⟩
def LNK_STAT.RXW : Field := ⟨0x20, 18, 2, .ro, 0⟩
def LNK_STAT.RXMASK : Field := ⟨0x20, 20, 12, .ro, 0⟩
def LNK_STAT.TXMASK : Field := ⟨0x20, 32, 12, .ro, 0⟩
def LNK_STAT.HOPS : Field := ⟨0x20, 44, 3, .ro, 0⟩
def LNK_STAT.SWAPPED : Field := ⟨0x20, 47, 1, .ro, 0⟩
def LNK_STAT.EDIR : Field := ⟨0x20, 48, 1, .ro, 0⟩
def LNK_STAT.DEGRADED : Field := ⟨0x20, 49, 1, .w1c, 0⟩
def LNK_PEER.COORD : Field := ⟨0x28, 0, 19, .ro, 0⟩
def LNK_PEER.PORT : Field := ⟨0x28, 19, 3, .ro, 0⟩
def LNK_PEER.LOGICAL : Field := ⟨0x28, 22, 4, .ro, 0⟩
def LNK_PEER.UID_LO : Field := ⟨0x28, 32, 32, .ro, 0⟩
def LNK_PEERIMG.ID : Field := ⟨0x30, 0, 32, .ro, 0⟩
def LNK_LEVEL.LINK : Field := ⟨0x38, 0, 8, .ro, 0⟩
def LNK_LEVEL.COLL : Field := ⟨0x38, 8, 8, .ro, 0⟩
def LNK_LEVEL.ALINK : Field := ⟨0x38, 16, 8, .ro, 0⟩
def LNK_LEVEL.ACOLL : Field := ⟨0x38, 24, 8, .ro, 0⟩
def LNK_REKEY.THR_LOG2 : Field := ⟨0x40, 0, 6, .rw, 44⟩
def LNK_REKEY.REQ : Field := ⟨0x40, 8, 1, .w1s, 0⟩
def LNK_REKEY.BUSY : Field := ⟨0x40, 9, 1, .ro, 0⟩
def LNK_REKEY.STALL : Field := ⟨0x40, 10, 1, .w1c, 0⟩
def LNK_REKEY.COUNT : Field := ⟨0x40, 32, 32, .ro, 0⟩
def LNK_RETRY.FILL : Field := ⟨0x48, 0, 12, .ro, 0⟩
def LNK_RETRY.AGE_NS : Field := ⟨0x48, 32, 32, .ro, 0⟩
def LNK_FCNT.COUNT (s : Nat) : Field := ⟨0x100 + 8 * s, 0, 49, .ro, 0⟩
def LNK_FCNT.KPH (s : Nat) : Field := ⟨0x100 + 8 * s, 49, 1, .ro, 0⟩
def LNK_FECCORR.COUNT : Field := ⟨0x180, 0, 48, .ro, 0⟩
def LNK_FECCORR.WRAP : Field := ⟨0x180, 63, 1, .w1c, 0⟩
def LNK_FECUNC.COUNT : Field := ⟨0x188, 0, 48, .ro, 0⟩
def LNK_FECUNC.WRAP : Field := ⟨0x188, 63, 1, .w1c, 0⟩
def LNK_CRCERR.COUNT : Field := ⟨0x190, 0, 48, .ro, 0⟩
def LNK_CRCERR.WRAP : Field := ⟨0x190, 63, 1, .w1c, 0⟩
def LNK_NAKS.COUNT : Field := ⟨0x198, 0, 48, .ro, 0⟩
def LNK_NAKS.WRAP : Field := ⟨0x198, 63, 1, .w1c, 0⟩
def LNK_DOWNS.COUNT : Field := ⟨0x1A0, 0, 48, .ro, 0⟩
def LNK_DOWNS.WRAP : Field := ⟨0x1A0, 63, 1, .w1c, 0⟩
def LNK_LANEERR.COUNT (k : Nat) : Field := ⟨0x200 + 8 * k, 0, 48, .ro, 0⟩
def LNK_LANEERR.WRAP (k : Nat) : Field := ⟨0x200 + 8 * k, 63, 1, .w1c, 0⟩
/-! Block rte. -/

def RTE_CTRL.ESC_WAIT : Field := ⟨0x0, 0, 16, .rw, 64⟩
def RTE_CTRL.SSTEP_EN : Field := ⟨0x0, 16, 1, .rw, 1⟩
def RTE_CTRL.NOTICE_WAIT : Field := ⟨0x0, 24, 8, .rw, 20⟩
def RTE_CTRL.XFER_TO : Field := ⟨0x0, 32, 16, .rw, 100⟩
def RTE_SHARE.SHARE (k : Nat) : Field := ⟨0x8, 8 * k, 8, .rwl, 32⟩
def RTE_VCW.W (p : Nat) (c : Nat) : Field := ⟨0x40 + 8 * p, 8 * c, 8, .ro, 0⟩
def RTE_LSMAP.PORTS : Field := ⟨0x80, 0, 8, .ro, 255⟩
def RTE_LSMAP.XRING : Field := ⟨0x80, 8, 4, .ro, 15⟩
def RTE_LSMAP.YRING : Field := ⟨0x80, 12, 4, .ro, 15⟩
def RTE_LSMAP.ZRING : Field := ⟨0x80, 16, 4, .ro, 15⟩
def RTE_FAIL.PORT : Field := ⟨0x100, 0, 3, .ro, 0⟩
def RTE_FAIL.VALID : Field := ⟨0x100, 3, 1, .w1c, 0⟩
def RTE_FAIL.NOTICED : Field := ⟨0x100, 4, 1, .ro, 0⟩
def RTE_FAIL.REINJ : Field := ⟨0x100, 16, 12, .ro, 0⟩
def RTE_FAIL.DISC : Field := ⟨0x100, 28, 12, .ro, 0⟩
def RTE_FAILTIME.TIME : Field := ⟨0x108, 0, 64, .ro, 0⟩
def RTE_LOSTCNT.COUNT : Field := ⟨0x180, 0, 48, .ro, 0⟩
def RTE_LOSTCNT.WRAP : Field := ⟨0x180, 63, 1, .w1c, 0⟩
def RTE_SSTEPCNT.COUNT : Field := ⟨0x188, 0, 48, .ro, 0⟩
def RTE_SSTEPCNT.WRAP : Field := ⟨0x188, 63, 1, .w1c, 0⟩
def RTE_UTCNT.COUNT : Field := ⟨0x190, 0, 48, .ro, 0⟩
def RTE_UTCNT.WRAP : Field := ⟨0x190, 63, 1, .w1c, 0⟩
def RTE_ESCCNT.COUNT : Field := ⟨0x198, 0, 48, .ro, 0⟩
def RTE_ESCCNT.WRAP : Field := ⟨0x198, 63, 1, .w1c, 0⟩
def RTE_BADPKT.COUNT : Field := ⟨0x1A0, 0, 48, .ro, 0⟩
def RTE_BADPKT.WRAP : Field := ⟨0x1A0, 63, 1, .w1c, 0⟩
def RTE_TSNAP.TIME : Field := ⟨0x200, 0, 64, .rw, 0⟩
def RTE_TELCTRL.PERIOD : Field := ⟨0x208, 0, 16, .rw, 64⟩
def RTE_TELCTRL.SNAP_DONE : Field := ⟨0x208, 16, 1, .w1c, 0⟩
def RTE_HIST.COUNT (v : Nat) (b : Nat) : Field := ⟨0x10000 + 0x80 * v + 8 * b, 0, 48, .ro, 0⟩
def RTE_HIST.WRAP (v : Nat) (b : Nat) : Field := ⟨0x10000 + 0x80 * v + 8 * b, 63, 1, .w1c, 0⟩
def RTE_STALL.COUNT (v : Nat) : Field := ⟨0x10040 + 0x80 * v, 0, 48, .ro, 0⟩
def RTE_STALL.WRAP (v : Nat) : Field := ⟨0x10040 + 0x80 * v, 63, 1, .w1c, 0⟩
def RTE_FLITS.COUNT (v : Nat) : Field := ⟨0x10048 + 0x80 * v, 0, 48, .ro, 0⟩
def RTE_FLITS.WRAP (v : Nat) : Field := ⟨0x10048 + 0x80 * v, 63, 1, .w1c, 0⟩
/-! Block coll. -/

def COLL_CTRL.ABORT : Field := ⟨0x0, 0, 16, .w1s, 0⟩
def COLL_CTRL.RETRY_US : Field := ⟨0x0, 16, 8, .rw, 2⟩
def COLL_CTRL.ERR_EVT : Field := ⟨0x0, 24, 1, .rw, 1⟩
def COLL_STAT.OPEN : Field := ⟨0x8, 0, 16, .ro, 0⟩
def COLL_STAT.NOPEN : Field := ⟨0x8, 16, 5, .ro, 0⟩
def COLL_STAT.HELD : Field := ⟨0x8, 24, 7, .ro, 0⟩
def COLL_ERR.STATUS : Field := ⟨0x10, 0, 8, .ro, 0⟩
def COLL_ERR.CTX : Field := ⟨0x10, 8, 4, .ro, 0⟩
def COLL_ERR.VALID : Field := ⟨0x10, 12, 1, .w1c, 0⟩
def COLL_ERR.GID : Field := ⟨0x10, 16, 16, .ro, 0⟩
def COLL_ERR.SEQ : Field := ⟨0x10, 32, 16, .ro, 0⟩
def COLL_ERRCOORD.COORD_A : Field := ⟨0x18, 0, 19, .ro, 0⟩
def COLL_ERRCOORD.COORD_B : Field := ⟨0x18, 32, 19, .ro, 0⟩
def COLL_ERRDIG.DIG_A : Field := ⟨0x20, 0, 32, .ro, 0⟩
def COLL_ERRDIG.DIG_B : Field := ⟨0x20, 32, 32, .ro, 0⟩
def COLL_STARTED.COUNT : Field := ⟨0x80, 0, 48, .ro, 0⟩
def COLL_STARTED.WRAP : Field := ⟨0x80, 63, 1, .w1c, 0⟩
def COLL_STALE.COUNT : Field := ⟨0x88, 0, 48, .ro, 0⟩
def COLL_STALE.WRAP : Field := ⟨0x88, 63, 1, .w1c, 0⟩
def COLL_RETRIES.COUNT : Field := ⟨0x90, 0, 48, .ro, 0⟩
def COLL_RETRIES.WRAP : Field := ⟨0x90, 63, 1, .w1c, 0⟩
def COLL_DROP.COUNT : Field := ⟨0x98, 0, 48, .ro, 0⟩
def COLL_DROP.WRAP : Field := ⟨0x98, 63, 1, .w1c, 0⟩
/-! Block collCtx. -/

def COLL_CTX_ID.GID : Field := ⟨0x0, 0, 16, .ro, 0⟩
def COLL_CTX_ID.SEQ : Field := ⟨0x0, 16, 16, .ro, 0⟩
def COLL_CTX_ID.OPEN : Field := ⟨0x0, 32, 1, .ro, 0⟩
def COLL_CTX_ID.DONE : Field := ⟨0x0, 33, 1, .ro, 0⟩
def COLL_CTX_ID.STATUS : Field := ⟨0x0, 40, 8, .ro, 0⟩
def COLL_CTX_ID.STAGE : Field := ⟨0x0, 48, 4, .ro, 0⟩
def COLL_CTX_ID.PACK : Field := ⟨0x0, 52, 4, .ro, 0⟩
def COLL_CTX_PROG.DIGEST : Field := ⟨0x8, 0, 32, .ro, 0⟩
def COLL_CTX_PROG.STEP : Field := ⟨0x8, 32, 16, .ro, 0⟩
def COLL_CTX_PROG.CHUNK : Field := ⟨0x8, 48, 16, .ro, 0⟩
def COLL_CTX_RX.BYTES : Field := ⟨0x10, 0, 64, .ro, 0⟩
def COLL_CTX_TX.BYTES : Field := ⟨0x18, 0, 64, .ro, 0⟩
def COLL_CTX_TOPEN.TIME : Field := ⟨0x20, 0, 64, .ro, 0⟩
def COLL_CTX_TPROG.TIME : Field := ⟨0x28, 0, 64, .ro, 0⟩
def COLL_CTX_DADDR.ADDR : Field := ⟨0x30, 0, 40, .ro, 0⟩
/-! Block shape. -/

def SHAPE_ID.ID : Field := ⟨0x0, 0, 32, .rwl, 0⟩
def SHAPE_STAT.LOADED : Field := ⟨0x8, 0, 1, .ro, 0⟩
def SHAPE_STAT.CLOSED : Field := ⟨0x8, 1, 1, .ro, 0⟩
def SHAPE_STAT.GRADE : Field := ⟨0x8, 2, 2, .ro, 0⟩
def SHAPE_STAT.PARTS : Field := ⟨0x8, 8, 8, .ro, 0⟩
def SHAPE_AMODE.FIFO (p : Nat) : Field := ⟨0x10, 2 * p, 1, .rwl, 0⟩
def SHAPE_AMODE.LIST (p : Nat) : Field := ⟨0x10, 2 * p + 1, 1, .rwl, 0⟩
/-! Block shapeP. -/

def SHAPE_PCFG.PACKS : Field := ⟨0x0, 0, 16, .rwl, 0⟩
def SHAPE_PCFG.STACKS : Field := ⟨0x0, 16, 12, .rwl, 0⟩
def SHAPE_PCFG.VALID : Field := ⟨0x0, 31, 1, .rwl, 0⟩
def SHAPE_SEED.SEED : Field := ⟨0x8, 0, 64, .rw, 0⟩
def SHAPE_OVCTRL.ID : Field := ⟨0x10, 0, 4, .rw, 0⟩
def SHAPE_OVCTRL.LOAD : Field := ⟨0x10, 8, 1, .w1s, 0⟩
def SHAPE_OVCTRL.DROP : Field := ⟨0x10, 9, 1, .w1s, 0⟩
def SHAPE_OVSTAT.HELD : Field := ⟨0x18, 0, 16, .ro, 0⟩
def SHAPE_OVSTAT.ACTIVE : Field := ⟨0x18, 16, 4, .ro, 0⟩
def SHAPE_OVSTAT.ACTIVE_VALID : Field := ⟨0x18, 20, 1, .ro, 0⟩
def SHAPE_OVSTAT.PENDING : Field := ⟨0x18, 21, 1, .ro, 0⟩
def SHAPE_OVSTAT.PEND_ID : Field := ⟨0x18, 22, 4, .ro, 0⟩
def SHAPE_OVSTAT.MISMATCH : Field := ⟨0x18, 26, 1, .w1c, 0⟩
def SHAPE_OVSTAT.LOAD_DONE : Field := ⟨0x18, 27, 1, .w1c, 0⟩
def SHAPE_OVSTAT.BUSY : Field := ⟨0x18, 28, 1, .ro, 0⟩
def SHAPE_OVSTAT.LOAD_ERR : Field := ⟨0x18, 32, 8, .ro, 0⟩
def SHAPE_OVARR.ARRIVED : Field := ⟨0x20, 0, 16, .ro, 0⟩
def SHAPE_OVARR.PARTICIPANTS : Field := ⟨0x20, 16, 16, .ro, 0⟩
def SHAPE_OVCOUNT.COUNT : Field := ⟨0x28, 0, 32, .ro, 0⟩
def SHAPE_STAGEAX.AX (g : Nat) : Field := ⟨0x30, 4 * g, 3, .ro, 0⟩
def SHAPE_TSTAGE.ST (t : Nat) : Field := ⟨0x80 + 8 * (t / 16), 4 * (t % 16), 4, .ro, 0⟩
def SHAPE_ROUTE.FORM (a : Nat) (b : Nat) : Field := ⟨0x100 + 8 * a, 4 * b, 3, .ro, 0⟩
/-- The 64-bit words of log entry i (R403): switch number and target, first arrival, t_L, release. -/
def SHAPE_OVLOG.W (i j : Nat) : Field := ⟨0x200 + 0x20 * i + 8 * j, 0, 64, .ro, 0⟩
/-! Block cen. -/

def CEN_PCTRL.CMODE : Field := ⟨0x0, 0, 2, .rw, 0⟩
def CEN_PCTRL.FPDETAIL : Field := ⟨0x0, 2, 1, .rw, 0⟩
def CEN_PCTRL.CLOSE : Field := ⟨0x0, 3, 1, .w1s, 0⟩
def CEN_PCTRL.NFEN : Field := ⟨0x0, 4, 1, .rw, 0⟩
def CEN_PCTRL.NFPH : Field := ⟨0x0, 5, 6, .rw, 0⟩
def CEN_PCTRL.NFCLR : Field := ⟨0x0, 11, 1, .w1s, 0⟩
def CEN_PCTRL.NFCTR : Field := ⟨0x0, 12, 10, .rw, 0⟩
def CEN_PSTAT.NAN : Field := ⟨0x8, 0, 1, .ro, 0⟩
def CEN_PSTAT.INF : Field := ⟨0x8, 1, 1, .ro, 0⟩
def CEN_PSTAT.CLOSING : Field := ⟨0x8, 2, 1, .ro, 0⟩
def CEN_PSTAT.CLOSES : Field := ⟨0x8, 32, 32, .ro, 0⟩
def CEN_NFSRC.ADDR : Field := ⟨0x10, 0, 40, .rw, 0⟩
def CEN_NFDST.ADDR : Field := ⟨0x18, 0, 40, .rw, 0⟩
def CEN_RBASE.BASE : Field := ⟨0x20, 12, 28, .rw, 0⟩
def CEN_RCFG.LOG2 : Field := ⟨0x28, 0, 5, .rw, 12⟩
def CEN_RCFG.WM : Field := ⟨0x28, 32, 32, .rw, 0⟩
def CEN_RWR.COUNT : Field := ⟨0x30, 0, 64, .ro, 0⟩
def CEN_RRD.COUNT : Field := ⟨0x38, 0, 64, .rw, 0⟩
def CEN_RDROP.COUNT : Field := ⟨0x40, 0, 48, .ro, 0⟩
def CEN_RDROP.WRAP : Field := ⟨0x40, 63, 1, .w1c, 0⟩
def CEN_PH_FP.A (k : Nat) : Field := ⟨0x800 + 0x20 * k, 0, 64, .ro, 0⟩
def CEN_PH_CYC.COUNT (k : Nat) : Field := ⟨0x808 + 0x20 * k, 0, 64, .ro, 0⟩
def CEN_PH_START.TIME (k : Nat) : Field := ⟨0x810 + 0x20 * k, 0, 64, .ro, 0⟩
def CEN_PH_STOP.TIME (k : Nat) : Field := ⟨0x818 + 0x20 * k, 0, 64, .ro, 0⟩
/-! Block trc. -/

def TRC_TIME.NS : Field := ⟨0x0, 0, 64, .ro, 0⟩
def TRC_TCTRL.MASTER : Field := ⟨0x8, 0, 1, .rw, 0⟩
def TRC_TCTRL.PARENT : Field := ⟨0x8, 1, 3, .rw, 0⟩
def TRC_TCTRL.PVALID : Field := ⟨0x8, 4, 1, .rw, 0⟩
def TRC_TCTRL.RELOCK : Field := ⟨0x8, 5, 1, .w1s, 0⟩
def TRC_TSET.NS : Field := ⟨0x10, 0, 64, .wo, 0⟩
def TRC_TSTAT.STATE : Field := ⟨0x18, 0, 2, .ro, 0⟩
def TRC_TSTAT.OFFSET : Field := ⟨0x18, 32, 32, .ro, 0⟩
def TRC_LINKDLY.PS (n : Nat) : Field := ⟨0x40 + 8 * n, 0, 32, .ro, 0⟩
/-! Block knl. -/

def KNL_MBCTRL.GO : Field := ⟨0x0, 0, 1, .w1s, 0⟩
def KNL_MBCMD.OPCODE : Field := ⟨0x8, 0, 8, .rw, 0⟩
def KNL_MBCMD.LEN : Field := ⟨0x8, 16, 12, .rw, 0⟩
def KNL_MBSTAT.BUSY : Field := ⟨0x10, 0, 1, .ro, 0⟩
def KNL_MBSTAT.DONE : Field := ⟨0x10, 1, 1, .w1c, 0⟩
def KNL_MBSTAT.COLLIDE : Field := ⟨0x10, 2, 1, .w1c, 0⟩
def KNL_MBSTAT.RESULT : Field := ⟨0x10, 8, 8, .ro, 0⟩
def KNL_MBSTAT.DETAIL : Field := ⟨0x10, 16, 8, .ro, 0⟩
def KNL_MBSTAT.OUTLEN : Field := ⟨0x10, 32, 12, .ro, 0⟩
def KNL_STATE.DEBUG : Field := ⟨0x18, 0, 1, .ro, 0⟩
def KNL_STATE.OPSLOT : Field := ⟨0x18, 1, 4, .ro, 0⟩
def KNL_STATE.OPREV : Field := ⟨0x18, 5, 4, .ro, 0⟩
def KNL_STATE.PARTS : Field := ⟨0x18, 16, 8, .ro, 0⟩
def KNL_UID.UID : Field := ⟨0x20, 0, 64, .ro, 0⟩
/-! Block cxlp. -/

def CXLP_LSTAT.RATE : Field := ⟨0x0, 0, 2, .ro, 0⟩
def CXLP_LSTAT.WIDTH : Field := ⟨0x0, 2, 2, .ro, 0⟩
def CXLP_LSTAT.MODE : Field := ⟨0x0, 4, 2, .ro, 0⟩
def CXLP_LSTAT.CACHE : Field := ⟨0x0, 6, 1, .ro, 0⟩
def CXLP_LSTAT.CMIDE : Field := ⟨0x0, 7, 1, .ro, 0⟩
def CXLP_LSTAT.REASON : Field := ⟨0x0, 8, 8, .ro, 0⟩
def CXLP_CFG.CTO_US : Field := ⟨0x8, 0, 16, .rw, 10000⟩
def CXLP_CFG.CACHE_EN : Field := ⟨0x8, 16, 1, .rw, 1⟩
def CXLP_ERRLOG.STATUS : Field := ⟨0x10, 0, 8, .ro, 0⟩
def CXLP_ERRLOG.LD : Field := ⟨0x10, 8, 4, .ro, 0⟩
def CXLP_ERRLOG.CHAN : Field := ⟨0x10, 12, 2, .ro, 0⟩
def CXLP_ERRLOG.INBOUND : Field := ⟨0x10, 14, 1, .ro, 0⟩
def CXLP_ERRLOG.VALID : Field := ⟨0x10, 16, 1, .w1c, 0⟩
def CXLP_ERRADDR.ADDR : Field := ⟨0x18, 0, 64, .ro, 0⟩
def CXLP_IOERR.COUNT : Field := ⟨0x20, 0, 48, .ro, 0⟩
def CXLP_IOERR.WRAP : Field := ⟨0x20, 63, 1, .w1c, 0⟩
def CXLP_MEMERR.COUNT : Field := ⟨0x28, 0, 48, .ro, 0⟩
def CXLP_MEMERR.WRAP : Field := ⟨0x28, 63, 1, .w1c, 0⟩
def CXLP_HOSTERR.COUNT : Field := ⟨0x30, 0, 48, .ro, 0⟩
def CXLP_HOSTERR.WRAP : Field := ⟨0x30, 63, 1, .w1c, 0⟩
def CXLP_TELCMD.EP : Field := ⟨0x40, 0, 24, .rw, 0⟩
def CXLP_TELCMD.PORT : Field := ⟨0x40, 24, 4, .rw, 0⟩
def CXLP_TELCMD.VC : Field := ⟨0x40, 28, 5, .rw, 0⟩
def CXLP_TELCMD.BANK : Field := ⟨0x40, 33, 1, .rw, 0⟩
def CXLP_TELCMD.GO : Field := ⟨0x40, 34, 1, .w1s, 0⟩
def CXLP_TELCMD.DONE : Field := ⟨0x40, 35, 1, .w1c, 0⟩
def CXLP_TELCMD.ERR : Field := ⟨0x40, 36, 1, .w1c, 0⟩
def CXLP_TELDATA.VALUE (k : Nat) : Field := ⟨0x80 + 8 * k, 0, 64, .ro, 0⟩
/-! Block cxlpL. -/

def CXLP_LDSTAT.OFFERED : Field := ⟨0x0, 0, 1, .ro, 0⟩
def CXLP_LDSTAT.BME : Field := ⟨0x0, 1, 1, .ro, 0⟩
def CXLP_LDSTAT.IDE_IO : Field := ⟨0x0, 2, 1, .ro, 0⟩
def CXLP_LDSTAT.HDM : Field := ⟨0x0, 3, 1, .ro, 0⟩
def CXLP_LDCTRL.IDE_REQ : Field := ⟨0x8, 0, 1, .w1s, 0⟩
def CXLP_LDRD.BYTES : Field := ⟨0x10, 0, 64, .ro, 0⟩
def CXLP_LDWR.BYTES : Field := ⟨0x18, 0, 64, .ro, 0⟩
def CXLP_LDMSI.COUNT : Field := ⟨0x20, 0, 64, .ro, 0⟩
/-! Block pmu. -/

def PMU_ID.DIE : Field := ⟨0x0, 0, 1, .ro, 0⟩
def PMU_THROT.LEVEL : Field := ⟨0x8, 0, 4, .ro, 0⟩
def PMU_THROT.SHPREQ : Field := ⟨0x8, 4, 4, .ro, 0⟩
def PMU_THROT.PWRREQ : Field := ⟨0x8, 8, 4, .ro, 0⟩
def PMU_THROT.HOSTCAP : Field := ⟨0x8, 12, 4, .rw, 0⟩
def PMU_PLIMIT.WATTS : Field := ⟨0x10, 0, 12, .rw, 0⟩
def PMU_PLIMIT.EN : Field := ⟨0x10, 12, 1, .rw, 1⟩
def PMU_POWER.WATTS : Field := ⟨0x18, 0, 12, .ro, 0⟩
def PMU_PIDLE.EN : Field := ⟨0x20, 0, 8, .rw, 0⟩
def PMU_PIDLE.DELAY : Field := ⟨0x20, 16, 16, .rw, 100⟩
def PMU_GATESTAT.PACKS : Field := ⟨0x28, 0, 8, .ro, 0⟩
def PMU_STRETCH.COUNT : Field := ⟨0x30, 0, 48, .ro, 0⟩
def PMU_STRETCH.WRAP : Field := ⟨0x30, 63, 1, .w1c, 0⟩
/-! Block shp. -/

def SHP_STATE.PSTATE : Field := ⟨0x0, 0, 3, .ro, 0⟩
def SHP_STATE.FAILCODE : Field := ⟨0x0, 8, 8, .ro, 0⟩
def SHP_STATE.LAST : Field := ⟨0x0, 16, 8, .ro, 0⟩
def SHP_STATE.SENSOR : Field := ⟨0x0, 24, 8, .ro, 0⟩
def SHP_CMD.OP : Field := ⟨0x8, 0, 4, .rw, 0⟩
def SHP_CMD.GO : Field := ⟨0x8, 4, 1, .w1s, 0⟩
def SHP_CMD.RESULT : Field := ⟨0x8, 8, 2, .ro, 0⟩
def SHP_CTRL.THR_EVT : Field := ⟨0x10, 0, 1, .rw, 0⟩
def SHP_WAKE.PIN : Field := ⟨0x18, 0, 1, .rw, 1⟩
def SHP_WAKE.PERST : Field := ⟨0x18, 1, 1, .rw, 1⟩
def SHP_WAKE.SENS : Field := ⟨0x18, 2, 1, .rw, 0⟩
def SHP_WAKE.AUTO : Field := ⟨0x18, 3, 1, .rw, 1⟩
def SHP_WAKE.LASTSRC : Field := ⟨0x18, 8, 8, .ro, 0⟩
def SHP_TPCTRL.KEEPOPEN : Field := ⟨0x20, 0, 4, .rw, 0⟩
def SHP_TPSTAT.CLOSED : Field := ⟨0x28, 0, 4, .ro, 0⟩
def SHP_TPSTAT.READY : Field := ⟨0x28, 4, 1, .ro, 0⟩
def SHP_LEASH.LIMIT : Field := ⟨0x30, 0, 14, .rw, 1000⟩
def SHP_LEASH.KNL_EN : Field := ⟨0x30, 14, 1, .rw, 1⟩
def SHP_LEASH.HOST_EN : Field := ⟨0x30, 15, 1, .rw, 0⟩
def SHP_LEASH.KRESET : Field := ⟨0x30, 16, 1, .rw, 1⟩
def SHP_LEASH.FIRED : Field := ⟨0x30, 17, 1, .w1c, 0⟩
def SHP_LEASH.CAUSE : Field := ⟨0x30, 18, 2, .ro, 0⟩
def SHP_HBEAT.VALUE : Field := ⟨0x38, 0, 32, .wo, 0⟩
/-- Reset values of the sensor configurations that R527 and R532 give: ACT, HI and LO. -/
def scfgAct (i : Nat) : Nat := if i < 52 then 3 else if 80 ≤ i ∧ i ≤ 88 then 8 else 0
def scfgHi (i : Nat) : Nat := if i < 40 then 1600 else if i < 52 then 1488 else if 80 ≤ i ∧ i ≤ 88 then 6 else 0x7FFF
def scfgLo (i : Nat) : Nat := if i < 40 then 1552 else if i < 52 then 1440 else if 80 ≤ i ∧ i ≤ 88 then 0 else 0x7FFF

def SHP_SCFG.RATE (i : Nat) : Field := ⟨0x400 + 0x10 * i, 0, 2, .rw, 0⟩
def SHP_SCFG.NLOG2 (i : Nat) : Field := ⟨0x400 + 0x10 * i, 2, 3, .rw, 4⟩
def SHP_SCFG.DIR (i : Nat) : Field := ⟨0x400 + 0x10 * i, 5, 1, .rw, 0⟩
def SHP_SCFG.ACT (i : Nat) : Field := ⟨0x400 + 0x10 * i, 6, 4, .rw, scfgAct i⟩
def SHP_SCFG.TLVL (i : Nat) : Field := ⟨0x400 + 0x10 * i, 10, 4, .rw, 4⟩
def SHP_SCFG.HI (i : Nat) : Field := ⟨0x400 + 0x10 * i, 32, 16, .rw, scfgHi i⟩
def SHP_SCFG.LO (i : Nat) : Field := ⟨0x400 + 0x10 * i, 48, 16, .rw, scfgLo i⟩
def SHP_SVAL.SAMPLE (i : Nat) : Field := ⟨0x408 + 0x10 * i, 0, 16, .ro, 0⟩
def SHP_SVAL.AVG (i : Nat) : Field := ⟨0x408 + 0x10 * i, 16, 16, .ro, 0⟩
def SHP_SVAL.ALARM (i : Nat) : Field := ⟨0x408 + 0x10 * i, 32, 1, .ro, 0⟩
/-! Block trcP. -/

def TRC_EBASE.BASE : Field := ⟨0x100, 12, 28, .rw, 0⟩
def TRC_ECFG.LOG2 : Field := ⟨0x108, 0, 5, .rw, 12⟩
def TRC_ECFG.EN : Field := ⟨0x108, 5, 1, .rw, 0⟩
def TRC_EWR.COUNT : Field := ⟨0x110, 0, 64, .ro, 0⟩
def TRC_ERD.COUNT : Field := ⟨0x118, 0, 64, .rw, 0⟩
def TRC_EDROP.COUNT : Field := ⟨0x120, 0, 48, .ro, 0⟩
def TRC_EDROP.WRAP : Field := ⟨0x120, 63, 1, .w1c, 0⟩
def TRC_EVEC.VEC_I : Field := ⟨0x128, 0, 11, .rw, 0⟩
def TRC_EVEC.VEC_W : Field := ⟨0x128, 11, 11, .rw, 1⟩
def TRC_EVEC.VEC_E : Field := ⟨0x128, 22, 11, .rw, 2⟩
def TRC_EVEC.VEC_F : Field := ⟨0x128, 33, 11, .rw, 3⟩
def TRC_EVEC.SEN : Field := ⟨0x128, 44, 4, .rw, 14⟩
def TRC_EMASK.MASK : Field := ⟨0x130, 0, 64, .rw, 0⟩
/-! Block trc. -/

def TRC_DEVWR.COUNT : Field := ⟨0x100, 0, 64, .ro, 0⟩
def TRC_DEVRD.COUNT : Field := ⟨0x108, 0, 64, .rw, 0⟩
def TRC_DEVDROP.COUNT : Field := ⟨0x110, 0, 48, .ro, 0⟩
def TRC_DEVDROP.WRAP : Field := ⟨0x110, 63, 1, .w1c, 0⟩
/-! Block packCen. -/

def CEN_PKSTAT.NAN : Field := ⟨0, 0, 1, .w1c, 0⟩
def CEN_PKSTAT.INF : Field := ⟨0, 1, 1, .w1c, 0⟩

end Sys2Proof.Machine
end

