-- ==== Sys2Proof/Machine/Num.lean ====
section
/-! DEFINITION. Number formats, rounding and conversion (03_number_formats.md, R73 to R99), and the FP32 arithmetic of
the vector unit and of the accumulators (R60, R101, R115). Codes are natural numbers below 2^width; values are exact. -/

namespace Sys2Proof.Machine

/-- 2^e for an exponent that may be negative, as the pair (numerator, denominator) would be awkward: shift a natural
number left by `e` when `e` is positive and right (dropping bits) when it is negative. -/
def shiftBy (n : Nat) (e : Int) : Nat :=
  if 0 ≤ e then n * 2 ^ e.toNat else n / 2 ^ (-e).toNat

/-- floor(log2 (man × 2^exp)) of a nonzero dyadic value. -/
def lg2 (man : Nat) (exp : Int) : Int := (Nat.log2 man : Int) + exp

/-- Mantissa bits p of R74. -/
def fmtMant : Fmt → Nat
  | .fp32 => 23 | .bf16 => 7 | .fp16 => 10 | .e4m3 => 3 | .e5m2 => 2 | .e3m2 => 2 | .e2m3 => 3 | .e2m1 => 1 | _ => 0

/-- Exponent bits of R74. -/
def fmtExpo : Fmt → Nat
  | .fp32 => 8 | .bf16 => 8 | .fp16 => 5 | .e4m3 => 4 | .e5m2 => 5 | .e3m2 => 3 | .e2m3 => 2 | .e2m1 => 2 | _ => 0

/-- Bias of R74. -/
def fmtBias : Fmt → Int
  | .fp32 => 127 | .bf16 => 127 | .fp16 => 15 | .e4m3 => 7 | .e5m2 => 15 | .e3m2 => 3 | .e2m3 => 1 | .e2m1 => 1
  | _ => 0

/-- emin = 1 − bias (R74). -/
def fmtEmin (f : Fmt) : Int := 1 - fmtBias f

/-- Element width in bits (R74, R79). -/
def fmtWidth : Fmt → Nat
  | .fp32 | .int32 => 32 | .bf16 | .fp16 => 16 | .e4m3 | .e5m2 | .int8 => 8 | .e3m2 | .e2m3 => 6
  | .e2m1 | .int4 => 4 | .int2 => 2 | .bin1 => 1

/-- Is this a floating-point layout of R74. -/
def fmtIsFloat : Fmt → Bool
  | .int8 | .int4 | .int2 | .bin1 | .int32 => false
  | _ => true

/-- A two's-complement code of `w` bits as an integer (R79). -/
def sext (w n : Nat) : Int :=
  let m := n % 2 ^ w
  if 2 ^ (w - 1) ≤ m then (m : Int) - (2 ^ w : Nat) else (m : Int)

/-- The two's-complement code of `w` bits of an integer. -/
def toBits (w : Nat) (i : Int) : Nat := (i % ((2 ^ w : Nat) : Int)).toNat

/-- The integer value as a dyadic value. -/
def valOfInt (i : Int) : Val := .fin (decide (i < 0)) i.natAbs 0

/-- The value of a code in a format (R74, R75, R77, R79). -/
def decodeFmt (f : Fmt) (c : Nat) : Val :=
  match f with
  | .int32 => valOfInt (sext 32 c)
  | .int8 => valOfInt (sext 8 c)
  | .int4 => valOfInt (sext 4 c)
  | .int2 => valOfInt (sext 2 c)
  | .bin1 => if c % 2 = 1 then valOfInt 1 else valOfInt (-1)
  | _ =>
    let p := fmtMant f
    let eb := fmtExpo f
    let neg := c / 2 ^ (p + eb) % 2 == 1
    let e := c / 2 ^ p % 2 ^ eb
    let m := c % 2 ^ p
    let special : Option Val :=
      match f with
      | .fp32 | .bf16 | .fp16 | .e5m2 =>
        if e = 2 ^ eb - 1 then some (if m = 0 then .inf neg else .nan) else none
      | .e4m3 => if e = 15 ∧ m = 7 then some .nan else none
      | _ => none
    match special with
    | some v => v
    | none =>
      if e = 0 then .fin neg m (fmtEmin f - p) else .fin neg (2 ^ p + m) ((e : Int) - fmtBias f - p)

/-- The canonical NaN code of a format that has one (R76, R77). -/
def canonNaN : Fmt → Nat
  | .fp32 => 0x7FC00000 | .bf16 => 0x7FC0 | .fp16 => 0x7E00 | .e4m3 => 0x7F | .e5m2 => 0x7E | _ => 0

/-- The code of +Inf in a format that has one (R76). -/
def infCode : Fmt → Nat
  | .fp32 => 0x7F800000 | .bf16 => 0x7F80 | .fp16 => 0x7C00 | .e5m2 => 0x7C | _ => 0

/-- The code of the largest finite value (R76, R94). -/
def maxCode : Fmt → Nat
  | .fp32 => 0x7F7FFFFF | .bf16 => 0x7F7F | .fp16 => 0x7BFF | .e4m3 => 0x7E | .e5m2 => 0x7B | .e3m2 => 0x1F
  | .e2m3 => 0x1F | .e2m1 => 0x7 | _ => 0

/-- The sign bit of a floating-point code. -/
def signBit (f : Fmt) (neg : Bool) : Nat := if neg then 2 ^ (fmtMant f + fmtExpo f) else 0

/-- The rounding of R89 and R90 to a quantum of 2^q: how many quanta the magnitude man × 2^exp rounds to. -/
def roundQuantum (q : Int) (mode : Rnd) (man : Nat) (exp : Int) : Nat :=
  if q ≤ exp then man * 2 ^ (exp - q).toNat
  else
    let sh := (q - exp).toNat
    let n := man / 2 ^ sh
    let r := man % 2 ^ sh
    let up :=
      match mode with
      | .rne => decide (2 ^ sh < 2 * r) || (decide (2 * r = 2 ^ sh) && n % 2 == 1)
      | .sr s rnd => decide (2 ^ s ≤ r * 2 ^ s / 2 ^ sh + rnd)
    if up then n + 1 else n

/-- The quantum exponent of R89 for a magnitude in a format with p mantissa bits and minimum exponent emin. -/
def quantum (p : Nat) (emin : Int) (man : Nat) (exp : Int) : Int := max (lg2 man exp) emin - p

/-- Does n × 2^q exceed the largest finite value of the format (R92). -/
def overflows (f : Fmt) (n : Nat) (q : Int) : Bool :=
  match decodeFmt f (maxCode f) with
  | .fin _ mm me =>
    let b := min q me
    decide (mm * 2 ^ (me - b).toNat < n * 2 ^ (q - b).toNat)
  | _ => false

/-- The code of the in-range magnitude n × 2^q, a multiple of the format's quantum (R75). -/
def packCode (f : Fmt) (n : Nat) (q : Int) : Nat :=
  if n = 0 then 0
  else
    let p := fmtMant f
    let l := lg2 n q
    if l < fmtEmin f then shiftBy n (q - (fmtEmin f - p))
    else (l + fmtBias f).toNat * 2 ^ p + (shiftBy n (q - (l - p)) - 2 ^ p)

/-- What one conversion counts (R99, R116): each field is 0 or 1. -/
structure Conv where
  code : Nat
  nan : Nat := 0
  inf : Nat := 0
  sat : Nat := 0
  flush : Nat := 0
deriving DecidableEq, Repr, Inhabited

/-- Conversion of a value to a target format, without a block scale (R89 to R96). `om` is the overflow-mode bit. -/
def convert (f : Fmt) (om : Bool) (mode : Rnd) (v : Val) : Conv :=
  match f with
  | .int8 =>
    match v with
    | .nan => { code := 0 }
    | .inf neg => { code := if neg then 0x80 else 0x7F, sat := 1 }
    | .fin neg man exp =>
      if man = 0 then { code := 0 }
      else
        let n := roundQuantum 0 mode man exp
        if neg then
          if 128 < n then { code := 0x80, sat := 1 }
          else { code := toBits 8 (-(n : Int)), flush := if n = 0 then 1 else 0 }
        else if 127 < n then { code := 0x7F, sat := 1 }
        else { code := n, flush := if n = 0 then 1 else 0 }
  | _ =>
    match v with
    | .nan =>
      match f with
      | .e3m2 | .e2m3 | .e2m1 => { code := 0, nan := 1 }
      | _ => { code := canonNaN f, nan := 1 }
    | .inf neg =>
      match f with
      | .e4m3 => if om then { code := canonNaN f, nan := 1 } else { code := signBit f neg + maxCode f, sat := 1 }
      | .e3m2 | .e2m3 | .e2m1 => { code := signBit f neg + maxCode f, sat := 1 }
      | _ => { code := signBit f neg + infCode f, inf := 1 }
    | .fin neg man exp =>
      if man = 0 then { code := signBit f neg }
      else
        let q := quantum (fmtMant f) (fmtEmin f) man exp
        let n := roundQuantum q mode man exp
        if overflows f n q then
          match f with
          | .fp32 | .bf16 => { code := signBit f neg + infCode f, inf := 1 }
          | .fp16 | .e5m2 =>
            if om then { code := signBit f neg + maxCode f, sat := 1 }
            else { code := signBit f neg + infCode f, inf := 1 }
          | .e4m3 => if om then { code := canonNaN f, nan := 1 } else { code := signBit f neg + maxCode f, sat := 1 }
          | _ => { code := signBit f neg + maxCode f, sat := 1 }
        else { code := signBit f neg + packCode f n q, flush := if n = 0 then 1 else 0 }

/-- Rounding to FP32 by RNE (R101). -/
def toF32 (v : Val) : Nat := (convert .fp32 false .rne v).code

/-- Rounding to FP32 in a given mode (R111). -/
def toF32m (m : Rnd) (v : Val) : Nat := (convert .fp32 false m v).code

/-- The value of an FP32 code. -/
def ofF32 (c : Nat) : Val := decodeFmt .fp32 c

def vIsNaN : Val → Bool
  | .nan => true
  | _ => false

def vIsInf : Val → Bool
  | .inf _ => true
  | _ => false

def vIsFin : Val → Bool
  | .fin _ _ _ => true
  | _ => false

def vIsZero : Val → Bool
  | .fin _ 0 _ => true
  | _ => false

/-- The value with its sign inverted. -/
def vNegate : Val → Val
  | .nan => .nan
  | .inf n => .inf (!n)
  | .fin n m e => .fin (!n) m e

/-- The signed integer man of a finite value at exponent `e` no greater than its own. -/
def vScaled (v : Val) (e : Int) : Int :=
  match v with
  | .fin n m x => let k : Int := (m * 2 ^ (x - e).toNat : Nat); if n then -k else k
  | _ => 0

/-- Exact product (R104). -/
def vmul (a b : Val) : Val :=
  match a, b with
  | .nan, _ => .nan
  | _, .nan => .nan
  | .inf n, .inf m => .inf (n != m)
  | .inf n, .fin m k _ => if k = 0 then .nan else .inf (n != m)
  | .fin m k _, .inf n => if k = 0 then .nan else .inf (n != m)
  | .fin n k e, .fin m l f => .fin (n != m) (k * l) (e + f)

/-- Exact sum under IEEE 754 with round to nearest (R115): opposite finite values give +0, −0 + −0 gives −0. -/
def vadd (a b : Val) : Val :=
  match a, b with
  | .nan, _ => .nan
  | _, .nan => .nan
  | .inf n, .inf m => if n = m then .inf n else .nan
  | .inf n, .fin _ _ _ => .inf n
  | .fin _ _ _, .inf n => .inf n
  | .fin n k e, .fin m l f =>
    let b := min e f
    let t := vScaled (.fin n k e) b + vScaled (.fin m l f) b
    if t = 0 then .fin (n && m && k == 0 && l == 0) 0 b else .fin (decide (t < 0)) t.natAbs b

/-- Exact comparison of two finite or infinite values: is a < b. -/
def vlt (a b : Val) : Bool :=
  match a, b with
  | .nan, _ => false
  | _, .nan => false
  | .inf n, .inf m => n && !m
  | .inf n, .fin _ _ _ => n
  | .fin _ _ _, .inf m => !m
  | .fin n k e, .fin m l f => let b := min e f; decide (vScaled (.fin n k e) b < vScaled (.fin m l f) b)

/-- Exact equality of values, +0 and −0 being equal (R188). -/
def veq (a b : Val) : Bool := !(vIsNaN a) && !(vIsNaN b) && !vlt a b && !vlt b a

/-- FP32 addition of codes (R115). -/
def fadd (a b : Nat) : Nat := toF32 (vadd (ofF32 a) (ofF32 b))

/-- FP32 fused multiply-add of codes, rounded once (R60, R191). -/
def ffma (a b c : Nat) : Nat := toF32 (vadd (vmul (ofF32 a) (ofF32 b)) (ofF32 c))

/-- floor(log2 abs x) of a finite nonzero FP32 code: what the largest-exponent census compares (R99, R116). -/
def expOf (v : Val) : Option Int :=
  match v with
  | .fin _ m e => if m = 0 then none else some (lg2 m e)
  | _ => none

/-- The larger of two optional exponents. -/
def maxExp (a b : Option Int) : Option Int :=
  match a, b with
  | none, y => y
  | x, none => x
  | some x, some y => some (max x y)

/-- The expansion of R82 and R83: the E4M3 code of a six-bit or four-bit code, the INT8 code of an INT4 code; every
other format passes unchanged (R84). -/
def expandCode (f : Fmt) (c : Nat) : Nat :=
  match f with
  | .e3m2 =>
    let e := c / 4 % 8
    let m := c % 4
    c / 32 % 2 * 128 + (if e = 0 then [0x00, 0x18, 0x20, 0x24].getD m 0 else (e + 4) * 8 + m * 2)
  | .e2m3 =>
    let e := c / 8 % 4
    let m := c % 8
    c / 32 % 2 * 128 +
      (if e = 0 then [0x00, 0x20, 0x28, 0x2C, 0x30, 0x32, 0x34, 0x36].getD m 0 else (e + 6) * 8 + m)
  | .e2m1 => c / 8 % 2 * 128 + [0x00, 0x30, 0x38, 0x3C, 0x40, 0x44, 0x48, 0x4C].getD (c % 8) 0
  | .int4 => toBits 8 (sext 4 c)
  | _ => c

/-- The format after expansion (R82). -/
def expandFmt : Fmt → Fmt
  | .e3m2 | .e2m3 | .e2m1 => .e4m3
  | .int4 => .int8
  | f => f

/-- The value of an operand element after the expansion stage. -/
def operandVal (f : Fmt) (c : Nat) : Val := decodeFmt (expandFmt f) (expandCode f c)

/-- The format codes of R176; 0xD to 0xF are reserved. -/
def fmtOf (c : Nat) : Option Fmt :=
  [Fmt.e4m3, .e5m2, .e3m2, .e2m3, .e2m1, .int8, .int4, .bf16, .fp16, .int2, .bin1, .fp32, .int32][c]?

/-- The bytes of a run read as one little-endian integer (R10, R81). -/
def leNat : List Nat → Nat
  | [] => 0
  | b :: r => b + 256 * leNat r

/-- The first `n` bytes of an integer, least significant first. -/
def leBytes : Nat → Nat → List Nat
  | 0, _ => []
  | n + 1, x => x % 256 :: leBytes n (x / 256)

/-- Element k of a packed run of elements w bits wide (R81). -/
def elemAt (run w k : Nat) : Nat := run / 2 ^ (w * k) % 2 ^ w

/-- A run of codes w bits wide packed into one integer (R81). -/
def packRun (w : Nat) : List Nat → Nat
  | [] => 0
  | c :: r => c % 2 ^ w + 2 ^ w * packRun w r

/-- The scale factor exponent of a block-scale code (R85). -/
def scaleExp (c : Nat) : Int := (c : Int) - 127

/-- A value times a power of two. -/
def vTimes2 (v : Val) (k : Int) : Val :=
  match v with
  | .fin n m e => .fin n m (e + k)
  | x => x

/-- Widening of a narrow element with scale code c to FP32 (R97), with its census (R99): `scaled` says whether the
source carries block scales. The 32 NaN of a block with scale 0xFF are counted one for each element. -/
def widen (f : Fmt) (scaled : Bool) (c code : Nat) : Conv :=
  if scaled && c == 0xFF then { code := 0x7FC00000, nan := 1 }
  else
    let v := decodeFmt f code
    let r := convert .fp32 false .rne (if scaled then vTimes2 v (scaleExp c) else v)
    { code := r.code, inf := if vIsFin v then r.inf else 0 }

/-- emax of R98. -/
def blockEmax : Fmt → Int
  | .e4m3 => 8 | .e5m2 => 15 | .e3m2 => 4 | _ => 2

/-- The largest floor(log2) over the finite nonzero values of a list. -/
def maxExpOf : List Val → Option Int
  | [] => none
  | v :: r => maxExp (expOf v) (maxExpOf r)

/-- The block scale code of R98 for 32 inputs. -/
def blockScale (f : Fmt) (xs : List Val) : Nat :=
  match maxExpOf xs with
  | none => 0
  | some e => (127 + max (-127) (min 127 (e - blockEmax f))).toNat

/-- A block-scaled conversion of one block of 32 values (R96, R98, R121): the scale byte, the element conversions with
one rounding mode each, with `d` the replay exponent added to the written scale code. -/
def convertBlock (f : Fmt) (om : Bool) (d : Nat) (xs : List (Val × Rnd)) : Nat × List Conv :=
  let code := blockScale f (xs.map Prod.fst)
  let nanBlock := (255, xs.map (fun _ => ({ code := 0, nan := 1 } : Conv)))
  let poisons := match f with
    | .e3m2 | .e2m3 | .e2m1 => xs.any (fun x => vIsNaN x.1)
    | _ => false
  if poisons || decide (254 < code + d) then nanBlock
  else (code + d, xs.map (fun x => convert f om x.2 (vTimes2 x.1 (-scaleExp code))))

/-- Philox-4×32 with ten rounds (R112). -/
def philoxRounds : Nat → Nat → Nat → Nat → Nat → Nat → Nat → Nat
  | 0, _, _, x0, _, _, _ => x0
  | n + 1, k0, k1, x0, x1, x2, x3 =>
    let p := 0xd2511f53 * x0
    let q := 0xcd9e8d57 * x2
    philoxRounds n ((k0 + 0x9e3779b9) % 2 ^ 32) ((k1 + 0xbb67ae85) % 2 ^ 32)
      (Nat.xor (Nat.xor (q / 2 ^ 32) x1) k0) (q % 2 ^ 32) (Nat.xor (Nat.xor (p / 2 ^ 32) x3) k1) (p % 2 ^ 32)

/-- gen of R112. -/
def gen (seed x0 x1 x2 x3 : Nat) : Nat :=
  philoxRounds 10 (seed % 2 ^ 32) (seed / 2 ^ 32 % 2 ^ 32) (x0 % 2 ^ 32) (x1 % 2 ^ 32) (x2 % 2 ^ 32) (x3 % 2 ^ 32)

/-- S of an SRB field (R177). -/
def srbOf (c : Nat) : Nat := 8 + 4 * (c % 4)

/-- The stochastic mode with the top `s` bits of a generator output (R91, R111). -/
def srMode (s g : Nat) : Rnd := .sr s (g / 2 ^ (32 - s))

end Sys2Proof.Machine
end

