-- ==== Sys2Proof/Machine/Lanes.lean ====
section
/-! DEFINITION. The arithmetic of the matrix array and of the vector unit on values, apart from their timing: block sums
(R102 to R105), chunk and total adds (R106, R115), the integer path (R44), and the lane operations of VOP (R187). -/

namespace Sys2Proof.Machine

/-- What a command counts (R99, R116, R216): NaN, Inf, saturation, flush and the largest exponent. -/
structure Census where
  nan : Nat := 0
  inf : Nat := 0
  sat : Nat := 0
  flush : Nat := 0
  maxe : Option Int := none
  replays : Nat := 0
deriving DecidableEq, Repr, Inhabited

/-- Two censuses together. -/
def cenAdd (a b : Census) : Census :=
  { nan := a.nan + b.nan, inf := a.inf + b.inf, sat := a.sat + b.sat, flush := a.flush + b.flush,
    maxe := maxExp a.maxe b.maxe, replays := a.replays + b.replays }

/-- The sum of a list of censuses. -/
def cenSum (l : List Census) : Census := l.foldl cenAdd {}

/-- One conversion's events as a census (R99). -/
def cenOfConv (c : Conv) : Census := { nan := c.nan, inf := c.inf, sat := c.sat, flush := c.flush }

/-- Products of the elements of a block (R104). -/
def products (a w : List Val) : List Val := List.zipWith vmul a w

/-- The exact sum of the finite values of a list at exponent −400, below every product's quantum (R103). -/
def finSum (l : List Val) : Int := l.foldl (fun s v => s + vScaled v (-400)) 0

/-- The exact scaled sum v of R102 over the finite products of a block. -/
def scaledSum (ps : List Val) (ca cb d : Nat) : Val :=
  let t := finSum ps
  .fin (decide (t < 0)) t.natAbs (-400 + scaleExp ca + scaleExp cb - d)

/-- The block sum of R102, R104 and R105, with its census (R116). The second component says NaN, the third overflow. -/
def blockSum (a w : List Val) (ca cb d : Nat) : Nat × Census :=
  let ps := products a w
  let badScale := ca == 0xFF || cb == 0xFF
  let r := convert .fp32 false .rne (scaledSum ps ca cb d)
  let infd := if badScale then 0 else r.inf
  if badScale || a.any vIsNaN || w.any vIsNaN || ps.any vIsNaN ||
      (ps.any (fun p => p == .inf true) && ps.any (fun p => p == .inf false)) then
    (0x7FC00000, { nan := 1, inf := infd })
  else if ps.any (fun p => p == .inf true) then (0xFF800000, { inf := infd })
  else if ps.any (fun p => p == .inf false) then (0x7F800000, { inf := infd })
  else
    let zero := finSum ps == 0
    (if zero then 0 else r.code,
     { inf := infd, flush := if zero then 0 else r.flush,
       maxe := if zero then none else expOf (ofF32 r.code) })

/-- A chunk or total add (R115) rounded in a given mode, with its census (R116). -/
def accAdd (m : Rnd) (x y : Nat) : Nat × Census :=
  let a := ofF32 x
  let b := ofF32 y
  let s := vadd a b
  let r := convert .fp32 false m s
  (r.code,
   { nan := if vIsNaN s && !(vIsNaN a) && !(vIsNaN b) then 1 else 0
     inf := if vIsFin a && vIsFin b then r.inf else 0
     maxe := expOf (ofF32 r.code) })

/-- The integer block sum (R44). -/
def intSum (a w : List Val) : Int := (products a w).foldl (fun s v => s + vScaled v 0) 0

/-- The integer total add: saturating INT32 (R44). -/
def intAdd (total : Nat) (k : Int) : Nat × Census :=
  let t := sext 32 total + k
  let hi : Int := 2 ^ 31 - 1
  let lo : Int := -(2 ^ 31)
  let r := if hi < t then hi else if t < lo then lo else t
  (toBits 32 r, { sat := if r = t then 0 else 1, maxe := expOf (valOfInt r) })

/-- The pairwise tree of R61, one level. -/
def pairSums : List Nat → List Nat
  | a :: b :: r => fadd a b :: pairSums r
  | l => l

/-- The sum of R61 over 128 lanes. -/
def laneSum (l : List Nat) : Nat := ((List.range 7).foldl (fun x _ => pairSums x) l).headD 0

/-- Canonical NaN in place of any NaN passed on (R188). -/
def quiet (c : Nat) : Nat := if vIsNaN (ofF32 c) then 0x7FC00000 else c

/-- One lane of VOP for the operations that act lane by lane (R187, R188). -/
def vopLane (op a b c : Nat) : Nat :=
  let va := ofF32 a
  let vb := ofF32 b
  let one := 0x3F800000
  let isN := vIsNaN va || vIsNaN vb
  match op with
  | 0x00 => fadd a b
  | 0x01 => toF32 (vadd va (vNegate vb))
  | 0x02 => toF32 (vmul va vb)
  | 0x03 => ffma a b c
  | 0x08 => if veq va vb then one else 0
  | 0x09 => if vlt va vb then one else 0
  | 0x0A => if !isN && !(vlt vb va) then one else 0
  | 0x0B => if isN then 0x7FC00000
            else if vIsZero va && vIsZero vb then (if a = 0x80000000 || b = 0x80000000 then 0x80000000 else 0)
            else if vlt vb va then b else a
  | 0x0C => if isN then 0x7FC00000
            else if vIsZero va && vIsZero vb then (if a = 0x80000000 && b = 0x80000000 then 0x80000000 else 0)
            else if vlt va vb then b else a
  | 0x0D => quiet (if vIsZero va then c else b)
  | 0x0E => quiet (a % 2 ^ 31)
  | 0x0F => quiet (Nat.xor a (2 ^ 31))
  | 0x10 => quiet (a % 2 ^ 31 + b / 2 ^ 31 % 2 * 2 ^ 31)
  | _ => quiet a

/-- All lanes of VOP (R187). -/
def vopLanes (op lsel : Nat) (a b c : List Nat) : List Nat :=
  match op with
  | 0x18 => (List.range 128).map (fun l => quiet (a.getD (Nat.xor l lsel) 0))
  | 0x19 => (List.range 128).map (fun _ => quiet (a.getD lsel 0))
  | 0x1C => let t := laneSum a; (List.range 128).map (fun _ => t)
  | _ => (List.range 128).map (fun l => vopLane op (a.getD l 0) (b.getD l 0) (c.getD l 0))

/-- Is the exact result of the VOP operation on a lane nonzero, for the flush census of R216. The product and the
multiply-add can round a nonzero exact result to zero, and so can the tree of the sum over lanes `lanes`. -/
def vopExactNonzero (op : Nat) (lanes : List Nat) (a b c : Nat) : Bool :=
  match op with
  | 0x1C => decide (finSum (lanes.map ofF32) ≠ 0)
  | 0x02 => !(vIsZero (vmul (ofF32 a) (ofF32 b)))
  | 0x03 => !(vIsZero (vadd (vmul (ofF32 a) (ofF32 b)) (ofF32 c)))
  | _ => false

/-- The census of one FP32 output element (R216), given the operand codes that the operation reads. -/
def cenF32 (operands : List Nat) (exactNonzero : Bool) (out : Nat) : Census :=
  let v := ofF32 out
  let anyNaN := operands.any (fun c => vIsNaN (ofF32 c))
  let anyInf := operands.any (fun c => vIsInf (ofF32 c))
  { nan := if vIsNaN v && !anyNaN then 1 else 0
    inf := if vIsInf v && !anyNaN && !anyInf then 1 else 0
    flush := if vIsZero v && exactNonzero then 1 else 0
    maxe := expOf v }

end Sys2Proof.Machine
end

