-- ==== Sys2Proof/Machine/State.lean ====
section
/-! DEFINITION. The state of one TH7 device as plain data, and the state after power-on reset (R495, R498). Register fields
stand in one sparse table keyed by address and low bit; queues, tiles, links, contexts and partitions in tables by their
number. -/

namespace Sys2Proof.Machine

/-- Why the machine stops with a fault. No meaning of this model raises one: every access that the manual says fails
completes with a status, which is the command's effect. -/
inductive Fault where
  /-- Raised by nobody: the manual gives every failure of the device an effect (safe). -/
  | none
deriving DecidableEq, Repr

/-- Why a command is refused. -/
inductive Refusal where
  /-- Raised by the dispatch of a command that has no meaning yet (safe: the machine stops). -/
  | notModelled (mnemonic : String)
deriving DecidableEq, Repr

/-- One accumulator entry (R51): flags bit 0 NaN seen, 1 overflow, 2 saturation, 3 scaled replay. -/
structure Entry where
  total : Word32 := 0
  chunk : Word32 := 0
  pos : BitVec 6 := 0
  ord : BitVec 24 := 0
  flags : BitVec 4 := 0
deriving DecidableEq, Repr, Inhabited

/-- A segment of scratch that an address generator names (R50): 64-byte row, first byte in the row, bytes in the row,
and bytes beyond the row, which read as 0 and are not written. -/
structure Seg where
  row : Nat
  off : Nat
  len : Nat
  pad : Nat
deriving DecidableEq, Repr, Inhabited

/-- One issued repeat of a CQ command whose accesses are still to come (R56, R59): issue cycle, command word, command
number, repeat index, and the loop indices and repeat bases of AG0, AG1 and AG2; `reload` says that its AGs read their list
rows again, as they must after a restore (R156, R164). -/
structure Rep where
  s : Nat
  w : Nat
  num : Nat
  r : Nat
  first : Bool
  last : Bool
  d : Nat
  ix : List (List Nat)
  base : List Nat
  reload : Bool := false
deriving DecidableEq, Repr, Inhabited

/-- The kinds of data in flight in a tile's pipeline (R56, R59). -/
inductive FlightOp where
  | rdB | wrB | rdA | enterA | chunk | total | intTotal | rdV | lanes | emitV | wrV
deriving DecidableEq, Repr, Inhabited

/-- One item in flight: the cycle in which it acts, the repeat it belongs to, its row group or vector, its addresses and
its data. -/
structure Flight where
  due : Nat
  s : Nat
  g : Nat
  op : FlightOp
  segs : List Seg := []
  segs2 : List Seg := []
  data : List (List Nat) := []
deriving DecidableEq, Repr, Inhabited

/-- The state of one address generator beside its registers (R71, R150, R153, R156, R555): FIFO entries oldest first,
entries that a scaled-replay command popped and keeps, the list row held, and its address program unit: cycle of its
next instruction, the cycles of the starts to come in order, loops innermost first (first word, length, passes left), and
whether a loaded program waits for the next block start (R164). -/
structure AgUnit where
  fifo : List Nat := []
  kept : List Nat := []
  keeping : Bool := false
  row : List Nat := []
  apNext : Nat := 0
  starts : List Nat := []
  stack : List (Nat × Nat × Nat) := []
  waitBlk : Bool := false
deriving DecidableEq, Repr, Inhabited

/-- A scaled replay that is to run (R66): the cycle at which the hold of the run that overflowed ends, the replay number
and the starting positions of the AGs. -/
structure Replay where
  hold : Nat
  runs : Nat
deriving DecidableEq, Repr, Inhabited

/-- One tile: its pipeline clock, the clock count at which TILE_CYCLES was 0 and the one at which partition idle gated it
(R70, R518), accumulators by bank × 12,288 + entry, shadow plane, weight registers, address
generators, issued repeats, data in flight; the issue cycles of the pass that began last and of the VU repeat whose first vector
reached the lanes last (R58, R59); what external writes of the present cycle replaced in scratch, newest first (R49). A
preemption that has taken effect is `preempting` (R160). -/
structure Tile where
  cyc : Nat := 0
  cycBase : Nat := 0
  gated : Option Nat := none
  acc : Tbl Entry := []
  shadow : Tbl Entry := []
  wsh : Tbl Val := []
  bPart : Tbl Nat := []
  wshScale : Tbl Nat := []
  act : Tbl Val := []
  actScale : Tbl Nat := []
  ags : Tbl AgUnit := []
  reps : List Rep := []
  flight : List Flight := []
  pass : Nat := 0
  vu : Nat := 0
  ext : List (Nat × List Nat) := []
  cen : Tbl Census := []
  replay : Option Replay := none
  preempting : Bool := false
  restoring : Bool := false
deriving DecidableEq, Repr, Inhabited

/-- The CQ command whose repeats are being issued (R138): word, number, next repeat, run of a scaled replay, the cycle of
its next repeat's bound, AG positions and list positions as its first repeat found them, and whether its next repeat is the
first since a restore. -/
structure Cur where
  w : Nat
  num : Nat
  rep : Nat := 0
  run : Nat := 0
  s0 : Nat := 0
  pos0 : List (List Nat) := []
  reload : Bool := false
deriving DecidableEq, Repr, Inhabited

/-- How far a command that has been issued has come. -/
inductive Wk where
  /-- Its own work goes on. -/
  | work
  /-- Its work is complete (R147). -/
  | done
  /-- It faulted after issue, with fault code, completion status, failing address and collective status (R218). -/
  | fault (code status addr coll : Nat)
  /-- It is to retire without work, signal and event (R208, R166). -/
  | skipped
deriving DecidableEq, Repr, Inhabited

/-- One command that has been issued and has not retired: number, word, how far its work has come, repeats not yet
started, pieces not yet complete, first error (status, address, collective status) and for a COLL its repeat, the cycle of
its last fixed-timing access, its census, its fingerprint data stream by repeat (R410), whether it is a CQ command that
RESUME executes again in a block to come (R218), and whether it does no data work (R139). -/
structure Prog where
  num : Nat
  w : Nat
  st : Wk := .work
  left : Nat := 0
  pieces : Nat := 0
  err : Option (Nat × Nat × Nat) := none
  errRep : Nat := 0
  due : Nat := 0
  census : Census := {}
  fp : Tbl (List Nat) := []
  again : Bool := false
  idle : Bool := false
deriving DecidableEq, Repr, Inhabited

/-- A WAIT that is registered, or released and not yet issued (R231, R245): counter, threshold, whether it consumes, the
fabric time and the NCLK of registration, repeats after this one, and whether it is released. -/
structure WaitReg where
  idx : Nat
  thr : Nat
  cons : Bool
  time : Nat
  at_ : Nat
  left : Nat
  released : Bool
deriving DecidableEq, Repr, Inhabited

/-- Why SEQ_QSTAT.FAULT is set: before the command at HEAD (R166), by a TAIL write (R132) or a refused save record (R164),
by a ring fetch (R135), or by the command of a number after its issue (R218). -/
inductive Hold where
  | none
  | refused
  | overrun
  | fetch
  | after (num : Nat)
deriving DecidableEq, Repr, Inhabited

/-- One queue beside its registers: prefetched commands by number, the TAIL at the start of a fetch from host memory that is
under way (R133), the first command of a failed fetch with its status and address, issued commands oldest first, the CQ
command being issued, whether an issue block is open and how many of its commands have not begun, the bound of R138 and the
drain cycle of R141, why it faults, whether RESUME passed a break, commands left to skip, its wait, its arrival at a switch
and its release from it, phase, fingerprint segment with its use and its numbers by phase (R412), fabric time of the last
retirement, whether the Leash may count, whether it has run since the start of this microsecond (R236), whether a restore has
loaded its retired count since it was last enabled. -/
structure Queue where
  pre : List (Nat × Nat) := []
  fetching : Option Nat := none
  fetchErr : Option (Nat × Nat × Nat) := none
  prog : List Prog := []
  cur : Option Cur := none
  isOpen : Bool := false
  blk : Nat := 0
  sNext : Nat := 0
  drain : Nat := 0
  hold : Hold := .none
  brkPass : Bool := false
  skip : Nat := 0
  wait : Option WaitReg := none
  arrived : Bool := false
  released : Bool := false
  phase : Nat := 0
  seg : Nat := 0
  segUsed : Bool := false
  segNo : Tbl Nat := []
  lastRetire : Nat := 0
  armed : Bool := true
  whole : Bool := false
  loaded : Bool := false
deriving DecidableEq, Repr, Inhabited

/-- What has happened to a sync counter in one NCLK (R224, R233): the NCLK, the value before it, its operations in the order of
R224 (class, whether a set, operand), and the queues whose waits it has released. -/
structure CtrNow where
  at_ : Nat := 0
  val : Nat := 0
  ops : List (Nat × Bool × Nat) := []
  rel : List QId := []
deriving DecidableEq, Repr, Inhabited

/-- One sync counter (R221): value, OVF, the queues whose waits are registered, in order (R233), and what has happened to it in
the NCLK of its last operation or registration, unless a queue has gone on after that. -/
structure Ctr where
  val : Nat := 0
  ovf : Bool := false
  waits : List QId := []
  now : Option CtrNow := none
deriving DecidableEq, Repr, Inhabited

/-- One Retriever (R204, R247): the RCOPY commands that wait for it in order of arrival, and the command in progress. -/
structure Ret where
  waiting : List (QId × Nat) := []
  cur : Option (QId × Nat) := none
  cmd : Nat := 0
  state : Nat := 0
  status : Nat := 0
  xfer : Nat := 0
  bytes : Nat := 0
  time : Nat := 0
  total : Nat := 0
deriving DecidableEq, Repr, Inhabited

/-- What a transfer or a host access belongs to: a repeat of a command, a load or store, the ring fetch of a queue with the first
command wanted and its place in the group (R133), or a firmware block with its number and CRC (R505). -/
inductive Owner where
  | cmd (q : QId) (num rep : Nat)
  | fetch (q : QId) (n at_ : Nat)
  | load (off n : Nat)
  | store
  | firmware (i crc : Nat)
deriving DecidableEq, Repr, Inhabited

/-- A transfer that this device issued (R332, R333): owner, length, bytes accounted, first error with its address, start
addresses of source and destination, whether its data come back to this device, the Retriever's pack, start time, and the
data that arrived by offset; for a load or a store its partition, for a store the tile, plus 1, that made it, its endpoint, and
while it must follow earlier stores (R230) these transfers and its packets. -/
structure Xfer where
  owner : Owner := .store
  len : Nat := 0
  acct : Nat := 0
  status : Nat := 0
  bad : Nat := 0
  src : Nat := 0
  dst : Nat := 0
  home : Bool := false
  pack : Nat := 0
  t0 : Nat := 0
  buf : Tbl (List Nat) := []
  part : Option Nat := none
  who : Nat := 0
  ep : Nat := 0
  after : List Nat := []
  held : List Pkt := []
deriving DecidableEq, Repr, Inhabited

/-- The kinds of device-initiated host access (R476). -/
inductive HostKind where
  | read
  | write
  | word
  | msix (vec : Nat)
deriving DecidableEq, Repr, Inhabited

/-- A device-initiated host access (R476 to R479): LD, kind, host address, local address, length, bytes whose pieces have
been taken, first status with its address, owner, pack, the data to write or the data that arrived by their place, bytes
complete, the fabric time of its last progress and the host-port Retriever that took its last piece. -/
structure HostAcc where
  ld : Nat := 0
  kind : HostKind := .read
  addr : Nat := 0
  loc : Nat := 0
  len : Nat := 0
  taken : Nat := 0
  status : Nat := 0
  bad : Nat := 0
  owner : Owner := .store
  pack : Nat := 0
  parts : Tbl (List Nat) := []
  done : Nat := 0
  time : Nat := 0
  ret : Option Nat := none
deriving DecidableEq, Repr, Inhabited

/-- A piece that the host has not answered: its access, first byte and length, the clock at which it was sent, and the
host-port Retriever, 0 or 1, that carries it. -/
structure HostPiece where
  acc : Nat
  off : Nat
  len : Nat
  t0 : Nat
  ret : Nat := 0
deriving DecidableEq, Repr, Inhabited

/-- A transmit slot of a link (R290, R294): position of its next flit in the open frame, the NCLK at which that frame
opened, and whether the slot changes its key phase at its next frame. -/
structure TxSlot where
  fpos : Nat := 0
  opened : Nat := 0
  switch : Bool := false
deriving DecidableEq, Repr, Inhabited

/-- A key exchange of a link that is under way (R294, R438): whether this end opened it, whether it leads, the DRBG outputs
behind its nonce and its ephemeral key, the peer's message and signature once they have come, and what has come of each before its
last packet. -/
structure Kx where
  opened : Bool := false
  lead : Bool := false
  nonce : Nat := 0
  eph : Nat := 0
  msg : List Nat := []
  sig : List Nat := []
  msgIn : List Nat := []
  sigIn : List Nat := []
deriving DecidableEq, Repr, Inhabited

/-- One port's link beside its registers (chapter 9): next sequence number, retry buffer with the time of each flit's
sending, the next flit of a rewind, whether the next flit carries NAK, transmit slots; expected number, flits held for
authentication, numbers authenticated above ACK, whether flits are discarded; times of the last good flit, of entry into the
state and of the start of training; next and present backoff wait in ms; lanes that are good; the mask that the receiver
changes to, the notice that null flits carry; link-local packets to send and flit times since the last one; heads whose tails
await acknowledgment, by VC; key exchanges done, whether the old phase's keys are kept for sending and for receiving, whether
a stall of this rekey has been reported; the keys, by 18 × direction (0 sends) + 9 × phase + slot, and the phase of the
newest; receive frame counters and phases by slot; the exchange under way, the peer's identity record, the modulus of its
identity key and its certificate chain; the hop count of the last training and whether the last flit carried the notice. -/
structure Link where
  txSeq : Nat := 0
  retry : List (Nat × Flit) := []
  rewind : Option Nat := none
  nakOut : Bool := false
  slots : Tbl TxSlot := []
  rxExpect : Nat := 0
  rxHeld : List Flit := []
  rxAuth : List Nat := []
  rxDrop : Bool := false
  lastGood : Nat := 0
  entered : Nat := 0
  trainStart : Nat := 0
  backoff : Nat := 1
  wait : Nat := 0
  good : Nat := 0
  newMask : Option Nat := none
  noticeOut : LinkNotice := .none
  llOut : List Pkt := []
  llGap : Nat := 8
  heads : Tbl Pkt := []
  keyGen : Nat := 0
  keyOld : Bool := false
  rxOld : Bool := false
  stalled : Bool := false
  keys : Tbl Nat := []
  phase : Nat := 0
  rxCnt : Tbl Nat := []
  rxPh : Tbl Nat := []
  kx : Option Kx := none
  peer : List Nat := []
  peerKey : Nat := 0
  peerChain : List Nat := []
  hops : Option Nat := none
  noticed : Bool := false
deriving DecidableEq, Repr, Inhabited

/-- The route of the packet at the front of an input VC (R323 to R328): output port (8 ejects, 9 discards with LOST, 10 waits
for the NOTICE of a failed port, 12 gives its flits to the packet formed again in an injection VC, 13 discards because its path
crosses a bridge out of service), its VC, the header to send, whether its head has gone, how many of its flits have gone (on
route 12 by how much the index of a flit falls), its bytes that are delivered, and the `via` of its head. -/
structure Route where
  port : Nat
  vc : Nat
  hdr : Pkt
  granted : Bool := false
  sent : Nat := 0
  passed : Nat := 0
  via : Nat := 0
deriving DecidableEq, Repr, Inhabited

/-- A declared link failure that awaits its NOTICE (R334 to R336): port, time of the declaration, retry buffer, heads
whose tails had not been acknowledged by VC, and the input VCs whose packet was partly sent, by output VC. -/
structure FailRec where
  port : Nat
  time : Nat
  buf : List (Nat × Flit)
  heads : Tbl Pkt
  keys : Tbl Nat
deriving DecidableEq, Repr, Inhabited

/-- The router beside its registers (chapter 10), by 21 × port + VC (port 8 injects): input queues, routes and the NCLK at
which a head came to the front; flits that each output's downstream buffer holds; credits owed and the NCLK of the first; the
counts of the arbitration rounds, and the VC weights of the rounds in progress by 8 × port + partition; link-local queues by
port; failures; packets that reached a unit; flits received of packets partly received from a link; packets being taken out;
numbers of NOTICEs that came before the own declaration, by port; the NCLK of the last sample and the RTE_TSNAP value served.
-/
structure Router where
  inq : Tbl (List Payload) := []
  route : Tbl Route := []
  since : Tbl Nat := []
  used : Tbl Nat := []
  owed : Tbl Nat := []
  owedAt : Tbl Nat := []
  rrPart : Tbl (List Nat) := []
  rrClass : Tbl (List Nat) := []
  rrW : Tbl (List Nat) := []
  llq : Tbl (List Pkt) := []
  fails : List FailRec := []
  ejected : List Pkt := []
  rxPkt : Tbl Nat := []
  building : Tbl Pkt := []
  early : Tbl Nat := []
  sampled : Nat := 0
  snapAt : Nat := 0
deriving DecidableEq, Repr, Inhabited

/-- The transactions of device-initiated host accesses (R477): CXL.cache reads and writes of 64-byte lines, or CXL.io memory
requests. -/
inductive HostTx where
  | rdCurr
  | itoMWr
  | woWrInv
  | memRd
  | memWr
deriving DecidableEq, Repr

/-- What the device puts out at its boundary, oldest first. -/
inductive Out where
  /-- Completion of an access: status and, for a read, the bytes. -/
  | compl (status : Nat) (data : List Nat)
  /-- A read or write toward host memory through LDn. -/
  | hostRead (tx : HostTx) (ld addr len : Nat)
  | hostWrite (tx : HostTx) (ld addr : Nat) (bytes : List Nat)
  /-- An MSI-X message of LDn: vector, address and data of its table entry. -/
  | msix (ld vec addr data : Nat)
  /-- A flit sent on a port. -/
  | flit (port : Nat) (f : Flit)
  /-- A link-local packet sent on a port. -/
  | linkLocal (port : Nat) (p : Pkt)
  /-- The identity record sent on a port in IDENT (R302). -/
  | ident (port : Nat) (bytes : List Nat)
  /-- An answer of the configuration, SPDM, FM API or coherence protocols: a tag and its bytes. -/
  | answer (tag : Nat) (bytes : List Nat)
deriving DecidableEq, Repr

/-- A credit request or an abort that a collective engine holds (R359, R370): group, sequence number, digest, stage, the
requester's context and level, its coordinate, the endpoint to answer, its Collar; and for an abort the status, the two
coordinates and the two digests. -/
structure CollMsg where
  isAbort : Bool := false
  gid : Nat := 0
  seq : Nat := 0
  digest : Nat := 0
  stage : Nat := 0
  ctx : Nat := 0
  clvl : Nat := 0
  coord : Nat := 0
  ep : Nat := 0
  collar : Nat := 0
  status : Nat := 0
  coordA : Nat := 0
  coordB : Nat := 0
  digA : Nat := 0
  digB : Nat := 0
deriving DecidableEq, Repr, Inhabited

/-- The sending side of a stage, or of one round of an all-to-all (R362, R363): whether the request has been sent and
awaits its resend, whether it is granted, the receiver's context and endpoint, its window, bytes sent and bytes credited. -/
structure CollOut where
  asked : Bool := false
  retry : Bool := false
  granted : Bool := false
  ctx : Nat := 0
  ep : Nat := 0
  window : Nat := 0
  sent : Nat := 0
  credited : Nat := 0
deriving DecidableEq, Repr, Inhabited

/-- One collective context (R357, R377): whether it is open or completed since, the command that opened it, descriptor,
digest, status, stage, step and chunk being sent, byte counts, times, the requests that wait for a stage, the sending side,
packets received in the stage by stage offset, bytes consumed, the endpoint that credit returns to, the step up to which
every token has come and the later ones that have, tokens sent, rounds of an all-to-all, and its census. -/
structure Coll where
  isOpen : Bool := false
  done : Bool := false
  q : QId := .gq 0
  num : Nat := 0
  rep : Nat := 0
  pack : Nat := 0
  part : Nat := 0
  daddr : Nat := 0
  desc : List Nat := []
  gid : Nat := 0
  seq : Nat := 0
  digest : Nat := 0
  status : Nat := 0
  stage : Nat := 0
  step : Nat := 0
  chunk : Nat := 0
  rx : Nat := 0
  tx : Nat := 0
  topen : Nat := 0
  tprog : Nat := 0
  reqs : List CollMsg := []
  snd : CollOut := {}
  got : Tbl Nat := []
  used : Nat := 0
  back : Nat := 0
  backCtx : Nat := 0
  tokIn : Nat := 0
  toks : List Nat := []
  tokOut : Nat := 0
  sround : Nat := 1
  rround : Nat := 1
  cen : Census := {}
deriving DecidableEq, Repr, Inhabited

/-- The records of one phase of one partition since the last close (R406, R407), beside the CEN_PH registers. -/
structure PhaseRec where
  cen : Census := {}
  cmds : Nat := 0
  inst : Nat := 0
  entered : Bool := false
  started : Bool := false
deriving DecidableEq, Repr, Inhabited

/-- One partition number (R441): life 0 absent, 1 creating, 2 active, 3 tearing down; what its PARTITION section gave; its
phases, drops, stored overlays, collective contexts, held items and the repeats that wait for a context (R357), the fabric
time of the first arrival at a pending switch, and while a switch with PHV waits for its close the phase, the queues that
take part and those whose OVERLAY is ready (R404); the Howl being written (cause and writer, cause queue, time of the
trigger, whether its format word could not be written, R240 to R244), Howls written, triggers counted, the packs whose
HOWL bit is set, and the clock since which the conditions of partition idle hold (R518). -/
structure Part where
  life : Nat := 0
  jdom : Nat := 0
  count : Nat := 0
  section_ : List Nat := []
  phases : Tbl PhaseRec := []
  dropped : Bool := false
  overlays : Tbl (List Nat) := []
  colls : Tbl Coll := []
  held : List CollMsg := []
  copen : List (QId × Nat × Nat) := []
  first : Nat := 0
  phid : Nat := 0
  barrier : List QId := []
  ready : List QId := []
  howl : Option (Nat × Nat × Nat × Bool) := none
  howls : Nat := 0
  howlMore : Nat := 0
  howlReq : List Nat := []
  idleAt : Option Nat := none
deriving DecidableEq, Repr, Inhabited

/-- What one device carries from manufacture or keeps in fuses (R2, R440, R446, R502): grade 1 TH7-144 or 2 TH7-128,
stepping 0 A0, 1 A1, 2 B0, unique ID, operator-key moduli by slot, revoke fuses, security-version fuse counts by image
type, and the six position straps as the board ties them (R547: X, Y and Z, two bits each). -/
structure Ident where
  grade : Nat := 1
  stepping : Nat := 2
  uid : Nat := 0
  opKeys : Tbl Nat := []
  opRev : Nat := 0
  svn : Tbl Nat := []
  straps : Nat := 0
deriving DecidableEq, Repr, Inhabited

/-- What the device knows of a firmware image (R501): version, security version, link and collective levels, SHA-256, and
whether the flash region holds it whole (R508). -/
structure FwImg where
  version : Nat := 1
  svn : Nat := 0
  llvl : Nat := 1
  clvl : Nat := 1
  digest : Nat := 0
  valid : Bool := true
deriving DecidableEq, Repr, Inhabited

/-- Kennel beside its registers and fuses (chapters 14 and 16): the mailbox command accepted and not finished, its result,
detail and output once known; PARTITION sections whose partitions are still to be created, the first being filled; the debug
nonce; requests made of the DRBG; the BAK, as the request that gave it, while Kennel holds it; whether the engine register
holds the KWK, which is `Config.kwk` of the device, and the XTS keys that it wraps, by partition; the boot attestation
certificate (R446), as the request behind the key that it carries, and the digests of images 2 to 5 and their fuse counts as
they stood at boot; the ports that a debug token has opened (R451); the keys of the link IDE stream; the base image applied;
the position straps as sampled (R549); XTS keys by partition; images in the boot flash and those that run, by type; the
staging area: state, type, length, blocks, verified digest, image being programmed and whether its readback matched; the
clock at which an activation window opened, the resets that it defers, and what a deferred warm reset finds when it ends. -/
structure Kennel where
  running : Option Nat := none
  result : Option (Nat × Nat × List Nat) := none
  creating : List (List Nat) := []
  nonce : Option (List Nat) := none
  drbg : Nat := 0
  bak : Option Nat := none
  kwk : Bool := true
  blobs : Tbl (List Nat) := []
  bootKey : Nat := 0
  boot : List Nat := []
  scope : Nat := 0
  linkIde : Option Nat := none
  base : List Nat := []
  straps : Nat := 0
  xts : Tbl Nat := []
  flash : Tbl FwImg := []
  run : Tbl FwImg := []
  fwState : Nat := 0
  fwType : Nat := 0
  fwLen : Nat := 0
  fwBlocks : Tbl (List Nat) := []
  fwDigest : List Nat := []
  fwNew : Option (FwImg × Bool) := none
  fwAt : Nat := 0
  deferWarm : Bool := false
  deferCode : Boot := {}
  deferParts : List Nat := []
deriving DecidableEq, Repr, Inhabited

/-- Shepherd and the pins beside the SHP_ registers (chapter 17): standby rail absent, 12 V in tolerance, PERST# asserted,
a warm reset that waits for its deassertion, the failed state, FAULT#, whether the retention SRAM holds a Doze record;
the last heartbeat of Kennel and of the host and whether each timer runs; whether Shepherd stays in its ROM (R499); a DOZE (1)
or STANDBY (2) that waits for the requests in flight and the wake that waits for it (R520); the axis of each port as the ports
lost power (R521); sensor windows, newest sample first. -/
structure Shepherd where
  off : Bool := false
  p12v : Bool := true
  perst : Bool := false
  warm : Bool := false
  failed : Bool := false
  fault : Bool := false
  retained : Bool := false
  knlBeat : Nat := 0
  hostBeat : Nat := 0
  knlLive : Bool := true
  hostLive : Bool := true
  rom : Bool := false
  dozing : Nat := 0
  dozeWake : Option (Nat × Boot) := none
  axes : List Nat := [0, 0, 1, 1, 2, 2, 3, 3]
  win : Tbl (List Nat) := []
deriving DecidableEq, Repr, Inhabited

/-- A PMU beside its registers (R514, R515): the clock of the last step of the applied level, or of the change that began its
fall, the clock since which the power-limit level waits to fall, and the power samples of the present millisecond. -/
structure Pmu where
  stepAt : Nat := 0
  fallAt : Nat := 0
  sum : Nat := 0
  count : Nat := 0
deriving DecidableEq, Repr, Inhabited

/-- An HDM decoder (R471): base and size in bytes, interleave ways, granularity, DPA skip, committed, Error Not Committed,
and Lock On Commit. -/
structure Hdm where
  base : Nat := 0
  size : Nat := 0
  ways : Nat := 1
  gran : Nat := 256
  skip : Nat := 0
  committed : Bool := false
  err : Bool := false
  lock : Bool := false
deriving DecidableEq, Repr, Inhabited

/-- A function of the host port, LDn or the FMLD as number 8 (R464, R466, R482): its PCIe command register, BARs 0, 2 and 4,
the MSI-X control (bit 0 enable, bit 1 function mask), the other words of its configuration space and of its component
registers that a host can change, by offset, its two HDM decoders, the keys of its selective IDE stream (R436), whether its
SPDM version is agreed, a key exchange has been made and its secured session is open. -/
structure LdFn where
  cmd : Nat := 0
  msix : Nat := 0
  cfg : Tbl Nat := []
  comp : Tbl Nat := []
  bar0 : Nat := 0
  bar2 : Nat := 0
  bar4 : Nat := 0
  hdm : Tbl Hdm := []
  ideKey : Option Nat := none
  version : Bool := false
  exchange : Bool := false
  session : Bool := false
deriving DecidableEq, Repr, Inhabited

/-- Fabric time beside its registers (R420, R421): since when the offset has been small, whether the device has locked since
the counter's reset, whether a master has set its time, units still to slew and whether they are to be added. -/
structure TimeSync where
  since : Option Nat := none
  locked : Bool := false
  set_ : Bool := false
  slew : Nat := 0
  forward : Bool := true
deriving DecidableEq, Repr, Inhabited

/-- The whole device. `time` is the fabric-time counter (R419), `clock` counts the same units without ever being set, and
`aclk0`, `aclk1` count the ACLK of each die. `scrubNow` names the stacks with an immediate scrub pass, `refresh` the next
bank to refresh, `bridges` is the mask of the bridges out of service, `bridgeSp` names the failed channels that spares
replace and `bridgeCh` the channel that failed in service, by bridge (R25), `lastLd` the LD that the host-port Retrievers
served last, `telAt` when a telemetry request was sent. -/
structure State where
  ident : Ident := {}
  kn : Kennel := {}
  shp : Shepherd := {}
  pmus : Tbl Pmu := []
  fns : Tbl LdFn := []
  tsync : TimeSync := {}
  parts : Tbl Part := []
  regs : Tbl Nat := []
  mem : List Host.Cell := []
  herr : Tbl (List (Nat × Nat)) := []
  tiles : Tbl Tile := []
  queues : Tbl Queue := []
  ctrs : Tbl Ctr := []
  rets : Tbl Ret := []
  links : Tbl Link := []
  rte : Router := {}
  xfers : Tbl Xfer := []
  xferNext : Nat := 0
  haccs : Tbl HostAcc := []
  haccNext : Nat := 0
  hpieces : Tbl HostPiece := []
  hpieceNext : Nat := 0
  lastLd : Nat := 0
  telAt : Option Nat := none
  time : Nat := 0
  clock : Nat := 0
  aclk0 : Nat := 0
  aclk1 : Nat := 0
  bridges : Nat := 0
  bridgeSp : Tbl (List Nat) := []
  bridgeCh : Tbl Nat := []
  msixOpen : Tbl (List Nat) := []
  msixTab : Tbl Nat := []
  msixPend : Tbl (List Nat) := []
  scrubNow : List Nat := []
  remapPtr : Tbl Nat := []
  refresh : Tbl Nat := []
  fresh : Nat := 0
  out : List Out := []
  pending : List Instr := []
deriving DecidableEq, Repr

/-- The registers whose value right after a power-on reset is not the reset value of their field: per port the logical axis n
div 2, the direction and effective direction n mod 2 and the two protocol levels of the image that runs (R313, R503); per
die the power limit TDP/2 of a TH7-144 (R531); the through-paths closed (R497). A key is register address × 64 + low bit. -/
def resetRegsTable : Tbl Nat :=
  [((0xC102100038 * 64), 1), ((0xC102100038 * 64 + 8), 1),
    ((0xC102110010 * 64 + 2), 1), ((0xC102110020 * 64 + 48), 1), ((0xC102110038 * 64), 1), ((0xC102110038 * 64 + 8), 1),
    ((0xC102120010 * 64), 1), ((0xC102120038 * 64), 1), ((0xC102120038 * 64 + 8), 1),
    ((0xC102130010 * 64), 1), ((0xC102130010 * 64 + 2), 1), ((0xC102130020 * 64 + 48), 1), ((0xC102130038 * 64), 1), ((0xC102130038 * 64 + 8), 1),
    ((0xC102140010 * 64), 2), ((0xC102140038 * 64), 1), ((0xC102140038 * 64 + 8), 1),
    ((0xC102150010 * 64), 2), ((0xC102150010 * 64 + 2), 1), ((0xC102150020 * 64 + 48), 1), ((0xC102150038 * 64), 1), ((0xC102150038 * 64 + 8), 1),
    ((0xC102160010 * 64), 3), ((0xC102160038 * 64), 1), ((0xC102160038 * 64 + 8), 1),
    ((0xC102170010 * 64), 3), ((0xC102170010 * 64 + 2), 1), ((0xC102170020 * 64 + 48), 1), ((0xC102170038 * 64), 1), ((0xC102170038 * 64 + 8), 1),
    ((0xC102500010 * 64), 950), ((0xC102510010 * 64), 950),
    ((0xC102600028 * 64), 15)]

/-- The images that a device carries when the model begins: Kennel, Shepherd, microcode and SerDes. -/
def resetImages : Tbl FwImg := [(2, {}), (3, {}), (4, {}), (5, {})]

/-- The device right after a power-on reset (R495 to R498, R500): no base image, no partition, every port in DISABLED, the
CXL link down, memory all zero, no command waiting. -/
def State.reset : State :=
  { ident := { svn := [(2, 0), (3, 0), (4, 0), (5, 0)] }
    kn := { flash := resetImages, run := resetImages, drbg := 1, bak := some 0, boot := [0, 0, 0, 0, 0, 0, 0, 0] }
    regs := resetRegsTable }

end Sys2Proof.Machine
end

