-- ==== Sys2Proof/Machine/Tables.lean ====
section
/-! DEFINITION. The operations on sparse tables and on the addressed bytes: the one place where either is read or
written. A table lists its numbers in rising order; memory lists no byte that is 0, because an unlisted byte reads as 0. -/

namespace Sys2Proof.Machine

/-- The entry of number k, if it is listed. -/
def tget {α : Type} : Tbl α → Nat → Option α
  | [], _ => none
  | (j, v) :: r, k => if j = k then some v else tget r k

/-- The entry of number k, or the default of an unlisted number. -/
def tgetD {α : Type} (t : Tbl α) (k : Nat) (d : α) : α := (tget t k).getD d

/-- The table with entry k set to v. -/
def tset {α : Type} : Tbl α → Nat → α → Tbl α
  | [], k, v => [(k, v)]
  | (j, w) :: r, k, v => if k < j then (k, v) :: (j, w) :: r else if j = k then (k, v) :: r else (j, w) :: tset r k v

/-- The table without entry k. -/
def tdel {α : Type} : Tbl α → Nat → Tbl α
  | [], _ => []
  | (j, w) :: r, k => if j = k then tdel r k else (j, w) :: tdel r k

/-- The table with entry k set, or removed when the value is the default. -/
def tput {α : Type} [DecidableEq α] (t : Tbl α) (k : Nat) (d v : α) : Tbl α := if v = d then tdel t k else tset t k v

/-- What an address that is not listed reads as. R494 zeroes every scratch and pack buffer at reset, R274 zero-fills the
HBM of a new partition, and the staging and mailbox buffers start at 0. -/
def memDefault : Byte := 0

/-- The byte at an address. -/
def mget (m : List Host.Cell) (a : Nat) : Byte := tgetD m a memDefault

/-- Memory with one byte written; the canonical form keeps no byte equal to the default. -/
def mset (m : List Host.Cell) (a : Nat) (b : Byte) : List Host.Cell := tput m a memDefault b

/-- The canonical form of memory: addresses strictly rise and no listed byte equals the default. -/
def Memory.wf : List Host.Cell → Bool
  | [] => true
  | [(_, b)] => b != memDefault
  | (a, b) :: (a', b') :: r => b != memDefault && decide (a < a') && Memory.wf ((a', b') :: r)

/-- `n` bytes from address a, as numbers, lowest address first. Only the cells of the range are searched. -/
def mread (m : List Host.Cell) (a n : Nat) : List Nat :=
  let part := m.filter (fun c => decide (a ≤ c.1) && decide (c.1 < a + n))
  (List.range n).map (fun i => (tgetD part (a + i) memDefault).toNat)

/-- Bytes written from address a upward. -/
def mwrite (m : List Host.Cell) (a : Nat) : List Nat → List Host.Cell
  | [] => m
  | b :: r => mwrite (mset m a (BitVec.ofNat 8 b)) (a + 1) r

/-- Memory with every byte of a range zero. -/
def mzero (m : List Host.Cell) (a n : Nat) : List Host.Cell :=
  m.filter (fun c => !(decide (a ≤ c.1) && decide (c.1 < a + n)))

end Sys2Proof.Machine
end

