-- ==== Sys2Proof/Machine/Ops.lean ====
section
/-! DEFINITION. The named operations over the state that every meaning shares: register fields, the address map, the
partition that a unit belongs to, output, counters that wrap, and host-visible records. -/

namespace Sys2Proof.Machine

/-- The key of a field of the block at a base address. -/
def fkey (base : Nat) (f : Field) : Nat := (base + f.off) * 64 + f.lo

/-- The value of a register field of the block at `base`: as many bits as the field is wide. -/
def State.rd (s : State) (base : Nat) (f : Field) : Nat := tgetD s.regs (fkey base f) f.rst % 2 ^ f.wid

/-- The state with a register field set to v modulo its width; a field at its reset value is not listed. -/
def State.wr (s : State) (base : Nat) (f : Field) (v : Nat) : State :=
  { s with regs := tput s.regs (fkey base f) f.rst (v % 2 ^ f.wid) }

/-- Is a one-bit field set. -/
def State.bit (s : State) (base : Nat) (f : Field) : Bool := s.rd base f != 0

/-- A 48-bit counter that wraps to 0 and sets WRAP (R70, R314, R340, R378, R486, R531, R540), raised by n. -/
def State.bump (s : State) (base : Nat) (count wrap : Field) (n : Nat) : State :=
  let v := s.rd base count + n
  let s := s.wr base count (v % 2 ^ 48)
  if 2 ^ 48 ≤ v then s.wr base wrap 1 else s

/-- One more item at the boundary. -/
def State.emit (s : State) (o : Out) : State := { s with out := s.out ++ [o] }

/-- A free value: the manual leaves it open, nothing constrains it, and the counter moves on. -/
def State.draw (s : State) : Nat × State := (Config.freeBits s.fresh, { s with fresh := s.fresh + 1 })

/-! Bases of the blocks in the local address map (R31, R68, R167 to R171, R249, R276, R313, R340, R402, R430, R431). -/

def tileBase (t : Nat) : Nat := 0xC100000000 + t * 0x10000
def agBase (t n : Nat) : Nat := tileBase t + 0x2000 + 0x100 * n
def accBase (t : Nat) : Nat := tileBase t + 0x3000
def apBase (t n : Nat) : Nat := tileBase t + 0x1C00 + 0x100 * n
def packBase (p : Nat) : Nat := 0xC101000000 + p * 0x40000
def retBase (p n : Nat) : Nat := packBase p + 0xC00 + 0x40 * n
def syncBase (p : Nat) : Nat := packBase p + 0x2000
def collBase (p : Nat) : Nat := packBase p + 0x3000
def packCenBase (p : Nat) : Nat := packBase p + 0x4000
def hbmcBase (h : Nat) : Nat := 0xC102000000 + h * 0x10000
def lnkBase (n : Nat) : Nat := 0xC102100000 + n * 0x10000
def rteBase : Nat := 0xC102200000
def shapeBase : Nat := 0xC102300000
def shapePBase (p : Nat) : Nat := shapeBase + 0x1000 + 0x400 * p
def stagingBase (p : Nat) : Nat := shapeBase + 0x8000 + 0x1000 * p
def cxlpBase : Nat := 0xC102400000
def cxlpLBase (n : Nat) : Nat := cxlpBase + 0x1000 + 0x800 * n
def pmuBase (d : Nat) : Nat := 0xC102500000 + d * 0x10000
def shpBase : Nat := 0xC102600000
def knlBase : Nat := 0xC102610000
def knlBuf : Nat := knlBase + 0x100
def trcBase : Nat := 0xC102700000
def trcPBase (p : Nat) : Nat := trcBase + 0x1000 * (p + 1)
def devEventBase : Nat := 0xC102710000
def cenBase (p : Nat) : Nat := 0xC102800000 + 0x1000 * p
def scratchBase (t : Nat) : Nat := 0xC000000000 + t * 0x400000
def packBufBase (p : Nat) : Nat := 0xC040000000 + p * 0x800000
def syncCtrBase : Nat := 0xC080000000

/-- The pack of a tile by its flat number. -/
def packOf (t : Nat) : Nat := t / 9

/-- The pack that a queue belongs to. -/
def qPack : QId → Nat
  | .cq t => packOf t
  | .mq t => packOf t
  | .gq p => p
  | .pmq p => p

/-- The table key of a queue. -/
def qKey : QId → Nat
  | .cq t => 4 * t
  | .mq t => 4 * t + 1
  | .gq p => 4 * p + 2
  | .pmq p => 4 * p + 3

/-- The register block of a queue (R167). -/
def qBase : QId → Nat
  | .cq t => tileBase t + 0x1000
  | .mq t => tileBase t + 0x1100
  | .gq p => packBase p
  | .pmq p => packBase p + 0x100

/-- The queue word of R244: flat tile or 0xFF, pack mod 16, kind. -/
def qWord : QId → Nat
  | .cq t => t + packOf t % 16 * 256
  | .mq t => t + packOf t % 16 * 256 + 0x1000
  | .gq p => 0xFF + p % 16 * 256 + 0x2000
  | .pmq p => 0xFF + p % 16 * 256 + 0x3000

def State.queue (s : State) (q : QId) : Queue := tgetD s.queues (qKey q) {}
def State.setQ (s : State) (q : QId) (v : Queue) : State := { s with queues := tset s.queues (qKey q) v }
def State.tile (s : State) (t : Nat) : Tile := tgetD s.tiles t {}
def State.setT (s : State) (t : Nat) (v : Tile) : State := { s with tiles := tset s.tiles t v }
def State.ctr (s : State) (p i : Nat) : Ctr := tgetD s.ctrs (p * 1024 + i) {}
def State.setC (s : State) (p i : Nat) (v : Ctr) : State := { s with ctrs := tset s.ctrs (p * 1024 + i) v }
def State.ret (s : State) (p n : Nat) : Ret := tgetD s.rets (p * 4 + n) {}
def State.setR (s : State) (p n : Nat) (v : Ret) : State := { s with rets := tset s.rets (p * 4 + n) v }
def State.part (s : State) (k : Nat) : Part := tgetD s.parts k {}
def State.setP (s : State) (k : Nat) (v : Part) : State := { s with parts := tset s.parts k v }
def State.link (s : State) (n : Nat) : Link := tgetD s.links n {}
def State.setL (s : State) (n : Nat) (v : Link) : State := { s with links := tset s.links n v }

/-- Fabric time in whole nanoseconds: the time counter runs in units of one seventh of a nanosecond (R419). -/
def State.ns (s : State) : Nat := s.time / 7

/-- NCLK cycles since reset: each is three units of the clock (R28, R419). -/
def State.nclk (s : State) : Nat := s.clock / 3

/-- The ACLK count of a die. -/
def State.aclk (s : State) (die : Nat) : Nat := if die = 0 then s.aclk0 else s.aclk1

/-- The die of a pack (R18). -/
def packDie (p : Nat) : Nat := p / 8

/-- Bit k of a number. -/
def bitAt (n k : Nat) : Bool := n / 2 ^ k % 2 == 1

/-- Bits [hi:lo] of a number. -/
def bitsAt (n hi lo : Nat) : Nat := n / 2 ^ lo % 2 ^ (hi + 1 - lo)

/-- The active partition that holds a pack (R433, R441). -/
def State.packPart (s : State) (p : Nat) : Option Nat :=
  (List.range 8).find? (fun k => s.bit (shapePBase k) SHAPE_PCFG.VALID &&
    bitAt (s.rd (shapePBase k) SHAPE_PCFG.PACKS) p)

/-- The partition that holds a queue. -/
def State.qPart (s : State) (q : QId) : Option Nat := s.packPart (qPack q)

/-- The packs of a partition, in ascending order. -/
def State.partPacks (s : State) (k : Nat) : List Nat :=
  (List.range 16).filter (fun p => bitAt (s.rd (shapePBase k) SHAPE_PCFG.PACKS) p)

/-- The stacks of a partition, in ascending order. -/
def State.partStacks (s : State) (k : Nat) : List Nat :=
  (List.range 12).filter (fun h => bitAt (s.rd (shapePBase k) SHAPE_PCFG.STACKS) h)

/-- Is partition k active. -/
def State.active (s : State) (k : Nat) : Bool := s.bit (shapePBase k) SHAPE_PCFG.VALID

/-- Is a tile present: TH7-128 has tile index 7 of every pack fused (R2, R3). -/
def State.tilePresent (s : State) (t : Nat) : Bool :=
  decide (t < 144) && !(s.ident.grade == 2 && t % 9 == 7)

/-- The present tiles of a pack, in ascending order. -/
def State.packTiles (s : State) (p : Nat) : List Nat :=
  ((List.range 9).map (fun i => 9 * p + i)).filter s.tilePresent

/-- The queues of a pack in the order of R224 and R245. -/
def State.packQueues (s : State) (p : Nat) : List QId :=
  (s.packTiles p).foldr (fun t r => .cq t :: .mq t :: r) [.gq p, .pmq p]

/-- The queues of a partition in the order of R245. -/
def State.partQueues (s : State) (k : Nat) : List QId :=
  (s.partPacks k).foldr (fun p r => s.packQueues p ++ r) []

/-- Apply a state change for every item of a list, in order. -/
def forEach {α : Type} (l : List α) (s : State) (f : State → α → State) : State := l.foldl f s

/-- What the DRBG gives for a request by its number: it is seeded again every 2^20 requests (R436). -/
def drbgAt (r : Nat) : Nat := Config.drbg (r / 2 ^ 20) (r % 2 ^ 20)

/-- Kennel takes bits of the DRBG. -/
def knlDraw (s : State) : Nat × State := (drbgAt s.kn.drbg, { s with kn := { s.kn with drbg := s.kn.drbg + 1 } })

end Sys2Proof.Machine
end

