-- ==== Sys2Proof/Machine/Counters.lean ====
section
/-! DEFINITION. What a write of memory or of VALUE does at the sync counters: the set of R222 with the examination of the waits
(R232, R233), and the step-skipping word of R424. -/

namespace Sys2Proof.Machine

/-- Does a counter index lie in the partition's range of a pack (R220). -/
def State.inRange (s : State) (p i : Nat) : Bool :=
  let b := syncBase p
  s.bit b SYNC_RANGE.VALID && decide (s.rd b SYNC_RANGE.FIRST ≤ i) && decide (i ≤ s.rd b SYNC_RANGE.LAST)

/-- The class and order in R224 of an operation from another pack's side of the mesh stop; those of the pack switch come before
it (`ctrSwitch`), and those of the pack's own queues first (`qRank`). -/
def ctrMesh : Nat := 301
def ctrSwitch : Nat := 300

/-- What has happened to a counter in this NCLK. -/
def State.ctrNow (s : State) (p i : Nat) : CtrNow :=
  let c := s.ctr p i
  match c.now with
  | some x => if x.at_ = s.nclk then x else { at_ := s.nclk, val := c.val }
  | none => { at_ := s.nclk, val := c.val }

/-- An operation takes its place among those of the NCLK: after those of its own order or an earlier one (R224). -/
def placeOp (o : Nat × Bool × Nat) : List (Nat × Bool × Nat) → List (Nat × Bool × Nat)
  | [] => [o]
  | x :: r => if o.1 < x.1 then o :: x :: r else x :: placeOp o r

/-- The operation is noted. -/
def noteOp (s : State) (p i : Nat) (o : Nat × Bool × Nat) : State :=
  let x := s.ctrNow p i
  s.setC p i { s.ctr p i with now := some { x with ops := placeOp o x.ops } }

/-- Release one wait if its condition holds (R232): a consuming wait subtracts its threshold in the same step. -/
def tryRelease (s : State) (p i : Nat) (q : QId) : State :=
  let qu := s.queue q
  match qu.wait with
  | none => s
  | some w =>
    let c := s.ctr p i
    if w.released || c.val < w.thr then s
    else
      let s := s.setC p i { c with
        val := if w.cons then c.val - w.thr else c.val, waits := c.waits.filter (fun x => x != q)
        now := c.now.map (fun x => { x with rel := x.rel ++ [q] }) }
      s.setQ q { qu with wait := some { w with released := true } }

/-- Examine the registered waits of a counter in the order of their registration (R233). -/
def examine (s : State) (p i : Nat) : State :=
  forEach (s.ctr p i).waits s (fun s q => tryRelease s p i q)

/-- The set of R222, then the examination of the waits. -/
def applySet (s : State) (p i v : Nat) : State :=
  examine (s.setC p i { s.ctr p i with val := v % 2 ^ 32 }) p i

/-- A set that comes last in its NCLK. -/
def ctrSet (s : State) (p i v : Nat) : State := applySet (noteOp s p i (ctrMesh, true, v)) p i v

/-- Does a completed write of n bytes at a cover any of bytes 0 to 3 at CEN_NFDST of partition k, while NFEN is set (R424). -/
def State.nfHit (s : State) (k a n : Nat) : Bool :=
  let d := s.rd (cenBase k) CEN_NFDST.ADDR
  s.bit (cenBase k) CEN_PCTRL.NFEN && decide (a < d + 4) && decide (d < a + n)

/-- The effect of R424 of such a write, whose bytes stand in memory. -/
def nfHook (s : State) (k a n : Nat) : State :=
  if s.nfHit k a n then
    let v := leNat (mread s.mem (s.rd (cenBase k) CEN_NFDST.ADDR) 4)
    let i := s.rd (cenBase k) CEN_PCTRL.NFCTR
    let set := if v % 2 ^ 31 = 0 then 0 else 1
    forEach (s.partPacks k) s (fun s p => if s.inRange p i then ctrSet s p i set else s)
  else s

end Sys2Proof.Machine
end

