-- ==== Sys2Proof/Machine/Places.lean ====
section
/-! DEFINITION. Where things stand: the rows of the local address map (01_anatomy.md R31), the interleave hash
(08_memory_system.md R252 to R254), the stops of units and addresses (R18, R19, R22), and the paths that cross a bridge (R21,
R25, R387, R388). -/

namespace Sys2Proof.Machine

/-- The row of R31 that holds a local address; 99 for a reserved one. -/
def rowOf (a : Nat) : Nat :=
  if a < 0xC000000000 then 0
  else if a < 0xC024000000 then 1
  else if a < 0xC040000000 then 99
  else if a < 0xC048000000 then 2
  else if a < 0xC080000000 then 99
  else if a < 0xC080100000 then 3
  else if a < 0xC100000000 then 99
  else if a < 0xC100900000 then 4
  else if a < 0xC101000000 then 99
  else if a < 0xC101400000 then 5
  else if a < 0xC102000000 then 99
  else if a < 0xC1020C0000 then 6
  else if a < 0xC102100000 then 99
  else if a < 0xC102180000 then 7
  else if a < 0xC102200000 then 99
  else if a < 0xC102300000 then 8
  else if a < 0xC102310000 then 9
  else if a < 0xC102400000 then 99
  else if a < 0xC102410000 then 10
  else if a < 0xC102500000 then 99
  else if a < 0xC102520000 then 11
  else if a < 0xC102600000 then 99
  else if a < 0xC102601000 then 12
  else if a < 0xC102610000 then 99
  else if a < 0xC102611000 then 13
  else if a < 0xC102700000 then 99
  else if a < 0xC102800000 then 14
  else if a < 0xC102810000 then 15
  else 99

/-! The interleave hash. -/

/-- The stacks of the domain of stack h, in ascending order (R252, R253). -/
def State.domain (s : State) (h : Nat) : List Nat :=
  (List.range 12).filter (fun k => bitAt (s.rd (hbmcBase h) HBMC_DOMAIN.DMASK) k)

/-- Parity of the bits of a number below 2^40. -/
def parity40 (n : Nat) : Nat := ((List.range 40).foldl (fun x k => x + n / 2 ^ k % 2) 0) % 2

/-- mask[b][j] of R254: bits 8 + j, 8 + j + b, … up to bit 39. -/
def hashMask (b j : Nat) : Nat :=
  (List.range 32).foldl (fun m i => if i % b = j then m + 2 ^ (8 + i) else m) 0

/-- log2 of the power of two in a domain size (R253). -/
def domLog (n : Nat) : Nat := Nat.log2 (if n % 3 = 0 then n / 3 else n)

/-- Where R253 puts a local address: stack, pseudo-channel number 16 × pch + chan, granule position y, sector. -/
def State.hbmPlace (s : State) (a : Nat) : Nat × Nat × Nat × Nat :=
  let sl := a / 2 ^ 36
  let hs := s.domain sl
  let n := hs.length
  let d := hs.findIdx (fun k => k == sl) * 2 ^ 36 + a % 2 ^ 36
  let g := d / 256
  let t := if n % 3 = 0 ∧ n ≠ 0 then g % 3 else 0
  let g' := if n % 3 = 0 ∧ n ≠ 0 then g / 3 else g
  let k := domLog n
  let b := 5 + k
  let dh := g' * 256
  let q := (List.range b).foldl (fun q j => q + parity40 (Nat.land dh (hashMask b j)) * 2 ^ j) 0
  let y := dh / 2 ^ (8 + b)
  (hs.getD (t * 2 ^ k + q / 32) sl, q % 32, y, a / 32 % 8)

/-- The local address of a sector of a pseudo-channel: the inverse of hbmPlace (R253 is a bijection). The low b bits of
the granule number are the hash bits XORed with the parity of the upper bits alone. -/
def State.hbmAddr (s : State) (h pc pos : Nat) : Nat :=
  let hs := s.domain h
  let n := hs.length
  let k := domLog n
  let b := 5 + k
  let idx := hs.findIdx (fun x => x == h)
  let t := idx / 2 ^ k
  let q := pc + 32 * (idx % 2 ^ k)
  let y := pos / 8
  let up := y * 2 ^ (8 + b)
  let low := (List.range b).foldl
    (fun l j => l + (q / 2 ^ j % 2 + parity40 (Nat.land up (hashMask b j))) % 2 * 2 ^ j) 0
  let g' := up / 256 + low
  let g := if n % 3 = 0 ∧ n ≠ 0 then 3 * g' + t else g'
  let d := g * 256 + pos % 8 * 32
  hs.getD (d / 2 ^ 36) h * 2 ^ 36 + d % 2 ^ 36

/-! Stops (R18, R19), as die and mesh row. -/

def packStop (p : Nat) : Nat × Nat := (p / 8, if p % 8 < 4 then 1 else 2)
def portStop (n : Nat) : Nat × Nat := (n / 4, n % 4)
def hostStop : Nat × Nat := (0, 0)
def kennelStop : Nat × Nat := (0, 3)

/-- The stop from which the records of the trace and event rings are written. R19 places no such writer: the model takes Kennel's
stop (DESIGN CHOICE, log 116). -/
def trcStop : Nat × Nat := kennelStop

/-- The stop at which a packet entered this device (R6, R19): that of a port, of unit n − 8 of the device itself, or of a
stack. -/
def entryStop (n : Nat) : Nat × Nat :=
  if n < 8 then portStop n
  else if n < 24 then packStop (n - 8)
  else if n = 24 then hostStop
  else if 40 ≤ n then ((n - 40) / 4, (n - 40) % 4)
  else kennelStop

/-- Die and mesh row of a source (R19): packs, the host port, Kennel; traffic of the fabric enters at the stop of its port.
A raw Collar names no unit, and its stop is taken as the host port's (DESIGN CHOICE, log 132). -/
def srcStop (c : Src) : Nat × Nat :=
  match c with
  | .unit p => packStop p
  | .tile t => packStop (packOf t)
  | .staged p _ => packStop p
  | .ld _ => hostStop
  | .mgmt => hostStop
  | .kennel => kennelStop
  | .collar _ => hostStop
  | .far n _ => entryStop n

/-- Die and mesh row of the stop that serves a local address (R19, R22): for HBM the stack that the hash selects. -/
def State.dstStop (s : State) (a : Nat) : Nat × Nat :=
  match rowOf a with
  | 0 => let h := (s.hbmPlace a).1
         (h / 6, if h % 6 < 3 then 0 else 3)
  | 1 => packStop (packOf ((a - 0xC000000000) / 0x400000))
  | 2 => packStop ((a - 0xC040000000) / 0x800000)
  | 3 => packStop ((a - syncCtrBase) / 0x10000)
  | _ => kennelStop

/-- The route form in force for an access (R387, R388): that of the pair of stages, when it goes to scratch. -/
def State.routeForm (s : State) (c : Src) (a : Nat) : Nat :=
  match c with
  | .staged p st =>
    let t := (a - 0xC000000000) / 0x400000
    match s.packPart p with
    | some k => if rowOf a = 1 ∧ s.packPart (packOf t) = some k then
        s.rd (shapePBase k) (SHAPE_ROUTE.FORM st (s.rd (shapePBase k) (SHAPE_TSTAGE.ST t))) else 0
    | none => 0
  | _ => 0

/-- Does the path or the reply's path cross a bridge out of service (R21, R25, R388, R538). -/
def State.crossFails (s : State) (form : Nat) (from_ dst : Nat × Nat) : Bool :=
  from_.1 != dst.1 &&
    (if 2 ≤ form ∧ form ≤ 5 then bitAt s.bridges (form - 2) else bitAt s.bridges from_.2 || bitAt s.bridges dst.2)

/-- Does a message from one stop to another cross a bridge out of service on its way (R21). -/
def State.wayFails (s : State) (from_ dst : Nat × Nat) : Bool := from_.1 != dst.1 && bitAt s.bridges from_.2

/-- Does an access to a range cross a bridge out of service: for HBM, any of its granules (R22). -/
def State.rangeCrosses (s : State) (c : Src) (a n : Nat) : Bool :=
  s.bridges != 0 &&
    (if rowOf a = 0 then
       (List.range (n / 256 + 2)).any (fun i =>
         let x := a / 256 * 256 + 256 * i
         decide (x < a + n) && s.crossFails 0 (srcStop c) (s.dstStop x))
     else s.crossFails (s.routeForm c a) (srcStop c) (s.dstStop a))

end Sys2Proof.Machine
end

