-- ==== Sys2Proof/Machine/Events.lean ====
section
/-! DEFINITION. Event records, their rings and their routing (18_errors_events.md, R533 to R541; the ring rule R417), and
MSI-X messages toward a host (R479). -/

namespace Sys2Proof.Machine

/-- The events of R535. -/
inductive Ev where
  | seqFault | seqBreak | seqTagdone | seqSaved | tileConflict | tileAlign | tileCollide | tileAgUnder
  | syncOvf | syncLeash | syncHowl | collError | shapeLoad | shapeOvlMismatch | shapeSwitched
  | cenPhaseClosed | cenRingWm | trcRingWm | hbmCe | hbmUe | hbmRemapDone | hbmNospare
  | cxlpAccessErr | cxlpIdeFail | knlDone | lnkUp | lnkDown | lnkHeld | lnkDegrade | lnkSwap | lnkImageDiff
  | lnkKeyStall | rtePortDown | rteNoticeTimeout | trcHoldover | shpAlarm | shpThrottle | shpLeash | bridgeFail
deriving DecidableEq, Repr

/-- Code, severity (0 I, 1 W, 2 E, 3 F) and scope (bit 0 P, bit 1 D) of an event (R535). The scopes that depend on the
occurrence (CXLP_ACCESS_ERR, CXLP_IDE_FAIL) follow the partition that the raiser names. -/
def evInfo : Ev → Nat × Nat × Nat
  | .seqFault => (0x01, 2, 1) | .seqBreak => (0x02, 0, 1) | .seqTagdone => (0x03, 0, 1) | .seqSaved => (0x04, 0, 1)
  | .tileConflict => (0x05, 1, 1) | .tileAlign => (0x06, 1, 1) | .tileCollide => (0x07, 1, 1)
  | .tileAgUnder => (0x08, 1, 1) | .syncOvf => (0x09, 1, 1) | .syncLeash => (0x0A, 2, 1) | .syncHowl => (0x0B, 0, 1)
  | .collError => (0x0C, 2, 1) | .shapeLoad => (0x0D, 0, 1) | .shapeOvlMismatch => (0x0E, 2, 1)
  | .shapeSwitched => (0x0F, 0, 1) | .cenPhaseClosed => (0x10, 0, 1) | .cenRingWm => (0x11, 1, 1)
  | .trcRingWm => (0x12, 1, 1) | .hbmCe => (0x13, 0, 3) | .hbmUe => (0x14, 2, 3) | .hbmRemapDone => (0x15, 0, 3)
  | .hbmNospare => (0x16, 1, 3) | .cxlpAccessErr => (0x17, 1, 1) | .cxlpIdeFail => (0x18, 2, 1)
  | .knlDone => (0x19, 0, 2) | .lnkUp => (0x1A, 0, 2) | .lnkDown => (0x1B, 1, 2) | .lnkHeld => (0x1C, 1, 2)
  | .lnkDegrade => (0x1D, 1, 2) | .lnkSwap => (0x1E, 0, 2) | .lnkImageDiff => (0x1F, 0, 2)
  | .lnkKeyStall => (0x20, 1, 2) | .rtePortDown => (0x21, 1, 2) | .rteNoticeTimeout => (0x22, 2, 2)
  | .trcHoldover => (0x23, 1, 2) | .shpAlarm => (0x24, 1, 2) | .shpThrottle => (0x25, 0, 2) | .shpLeash => (0x26, 2, 2)
  | .bridgeFail => (0x27, 3, 2)

/-- What a raiser says about an event (R536). -/
structure EvData where
  qword : Nat := 0
  status : Nat := 0
  subj : Nat := 0
  tag : Nat := 0
  addr : Nat := 0
  retired : Nat := 0
  detail : Nat := 0
deriving DecidableEq, Repr

/-- The 64 bytes of an event record (R536). -/
def evRecord (e : Ev) (part : Nat) (time : Nat) (d : EvData) : List Nat :=
  let (code, sev, _) := evInfo e
  leBytes 2 code ++ [sev, part] ++ leBytes 4 d.qword ++ leBytes 8 time ++ [d.status % 256, d.subj % 256] ++
    leBytes 2 d.tag ++ leBytes 4 0 ++ leBytes 8 d.addr ++ leBytes 8 d.retired ++ leBytes 8 d.detail ++ leBytes 16 0

/-- Does a range lie in the HBM slices of an active partition (R33, R251). -/
def State.inPartHbm (s : State) (k a n : Nat) : Bool :=
  let ok := fun x =>
    decide (x / 2 ^ 36 < 12) && s.bit (hbmcBase (x / 2 ^ 36)) HBMC_DOMAIN.VALID &&
      s.rd (hbmcBase (x / 2 ^ 36)) HBMC_DOMAIN.PART == k
  ok a && ok (a + n - 1)

/-- A ring size field: values outside the legal range act as 12 (R430, R541). -/
def ringLog (v hi : Nat) : Nat := if 12 ≤ v ∧ v ≤ hi then v else 12

/-- One 64-byte record from a stop into a ring of partition k (R417): true when it was written, false when it was dropped. -/
def ringPut (s : State) (from_ : Nat × Nat) (k base lg wr rd : Nat) (rcd : List Nat) : State × Bool :=
  let size := 2 ^ lg
  let a := base + wr % size
  if wr - rd + 64 ≤ size ∧ s.inPartHbm k a 64 ∧ !(s.crossFails 0 from_ (s.dstStop a)) then
    (nfHook { s with mem := mwrite s.mem a rcd, herr := tdel (tdel s.herr (a / 32)) (a / 32 + 1) } k a 64, true)
  else (s, false)

/-- The key of word i of the entry of a vector in the MSI-X tables. -/
def msixKey (ld vec i : Nat) : Nat := ld * 8192 + 4 * vec + i

/-- Word i of an MSI-X table entry: message address low and high, message data, vector control with the mask in bit 0. -/
def State.msixWord (s : State) (ld vec i : Nat) : Nat :=
  if i = 3 then (if (tgetD s.msixOpen ld []).contains vec then 0 else 1) else tgetD s.msixTab (msixKey ld vec i) 0

/-- Can a vector of LDn be sent (R479; PRESUMED, PCIe): the host has unmasked it, MSI-X is enabled and its function mask
clear, and Bus Master Enable is set. -/
def State.vecOpen (s : State) (ld vec : Nat) : Bool :=
  (tgetD s.msixOpen ld []).contains vec && s.bit (cxlpLBase ld) CXLP_LDSTAT.BME && (tgetD s.fns ld {}).msix % 4 == 1

/-- An MSI-X message of LDn: a vector that cannot be sent sets its pending bit (R479). -/
def sendMsix (s : State) (ld vec : Nat) : State :=
  if !(s.vecOpen ld vec) then
    let pd := tgetD s.msixPend ld []
    if pd.contains vec then s else { s with msixPend := tset s.msixPend ld (pd ++ [vec]) }
  else
    let s := s.wr (cxlpLBase ld) CXLP_LDMSI.COUNT (s.rd (cxlpLBase ld) CXLP_LDMSI.COUNT + 1)
    s.emit (.msix ld vec (s.msixWord ld vec 0 + 2 ^ 32 * s.msixWord ld vec 1) (s.msixWord ld vec 2))

/-- A record into the device event buffer of 256 records (R541). -/
def devPut (s : State) (rcd : List Nat) : State :=
  let wr := s.rd trcBase TRC_DEVWR.COUNT
  if wr - s.rd trcBase TRC_DEVRD.COUNT < 256 then
    { s with mem := mwrite s.mem (devEventBase + wr % 256 * 64) rcd }.wr trcBase TRC_DEVWR.COUNT (wr + 1)
  else s.bump trcBase TRC_DEVDROP.COUNT TRC_DEVDROP.WRAP 1

/-- A record into the event ring of partition k, or a count of a drop (R537, R541). -/
def partRing (s : State) (k : Nat) (rcd : List Nat) : State :=
  let b := trcPBase k
  let drop := s.bump b TRC_EDROP.COUNT TRC_EDROP.WRAP 1
  if s.bit b TRC_ECFG.EN then
    let wr := s.rd b TRC_EWR.COUNT
    let r := ringPut s trcStop k (s.rd b TRC_EBASE.BASE * 4096) (ringLog (s.rd b TRC_ECFG.LOG2) 24) wr (s.rd b TRC_ERD.COUNT) rcd
    if r.2 then r.1.wr b TRC_EWR.COUNT (wr + 64) else drop
  else drop

/-- The vector of a severity (R537, R541). -/
def State.evVec (s : State) (k sev : Nat) : Nat :=
  let b := trcPBase k
  match sev with
  | 0 => s.rd b TRC_EVEC.VEC_I
  | 1 => s.rd b TRC_EVEC.VEC_W
  | 2 => s.rd b TRC_EVEC.VEC_E
  | _ => s.rd b TRC_EVEC.VEC_F

/-- A record into the event ring of partition k, and then the vector of its severity (R537). -/
def partPut (s : State) (k code sev : Nat) (rcd : List Nat) : State :=
  let b := trcPBase k
  let s := partRing s k rcd
  if bitAt (s.rd b TRC_EVEC.SEN) sev && !(bitAt (s.rd b TRC_EMASK.MASK) code) then sendMsix s k (s.evVec k sev) else s

/-- Does an event go to the ring of its partition (R536). -/
def State.evToPart (s : State) (scope : Nat) (part : Option Nat) : Bool :=
  scope % 2 == 1 && (match part with
    | some k => s.active k
    | none => false)

/-- Raise an event concerning a partition or none (R535 to R537). -/
def raiseEv (s : State) (e : Ev) (part : Option Nat) (d : EvData) : State :=
  let (code, sev, scope) := evInfo e
  let rcd := evRecord e (part.getD 0xFF) s.ns d
  let toP := s.evToPart scope part
  let s := if toP then partPut s (part.getD 0) code sev rcd else s
  if scope / 2 == 1 || !toP then devPut s rcd else s

end Sys2Proof.Machine
end

