-- ==== Sys2Proof/Machine/Xts.lean ====
section
/-! DEFINITION. The cipher of the HBM contents (R273): XTS-AES-256 as IEEE 1619 defines it, on sectors of two blocks. A block
is a list of 16 bytes. -/

namespace Sys2Proof.Machine

/-- Product of two bytes in the field of a polynomial, by b's bits. -/
def gfMulAux (poly : Nat) : Nat → Nat → Nat → Nat
  | 0, _, _ => 0
  | n + 1, a, b =>
    let a2 := if 128 ≤ a then Nat.xor (2 * a) poly else 2 * a
    Nat.xor (if b % 2 = 1 then a else 0) (gfMulAux poly n a2 (b / 2))

/-- The exclusive or of two strings of bytes. -/
def xorBytes (a b : List Nat) : List Nat := a.zipWith Nat.xor b

/-- The substitution box of AES and its inverse, entry x at bits 8x up. -/
def aesBox : Nat :=
  0x16BB54B00F2D99416842E6BF0D89A18CDF2855CEE9871E9B948ED9691198F8E19E1DC186B95735610EF6034866B53E708A8BBD4B1F74DDE8C6B4A61C2E2578BA08AE7A65EAF4566CA94ED58D6D37C8E779E4959162ACD3C25C2406490A3A32E0DB0B5EDE14B8EE4688902A22DC4F816073195D643D7EA7C41744975FEC130CCDD2F3FF1021DAB6BCF5389D928F40A351A89F3C507F02F94585334D43FBAAEFD0CF584C4A39BECB6A5BB1FC20ED00D153842FE329B3D63B52A05A6E1B1A2C830975B227EBE28012079A059618C323C7041531D871F1E5A534CCF73F362693FDB7C072A49CAFA2D4ADF04759FA7DC982CA76ABD7FE2B670130C56F6BF27B777C63
def aesUnbox : Nat :=
  0x7D0C2155631469E126D677BA7E042B17619953833CBBEBC8B0F52AAE4D3BE0A0EF9CC9939F7AE52D0D4AB519A97F51605FEC8027591012B131C7078833A8DD1FF45ACD78FEC0DB9A2079D2C64B3E56FC1BBE18AA0E62B76F89C5291D711AF1476EDF751CE837F9E28535ADE72274AC9673E6B4F0CECFF297EADC674F4111913A6B8A130103BDAFC1020F3FCA8F1E2CD00645B3B80558E4F70AD3BC8C00ABD890849D8DA75746155EDAB9EDFD5048706C92B6655DCC5CA4D41698688664F6F87225D18B6D49A25B76B224D92866A12E084EC3FA420B954CEE3D23C2A632947B54CBE9DEC444438E3487FF2F9B8239E37CFBD7F3819EA340BF38A53630D56A0952

/-- A substitution of every byte by a box. -/
def aesSub (box : Nat) (b : List Nat) : List Nat := b.map (fun x => box / 2 ^ (8 * x) % 256)

/-- A permutation of the bytes of a block, whose byte r + 4c stands in row r and column c: step 5 moves row r left by r columns,
step 13 moves it back. -/
def aesTurn (step : Nat) (b : List Nat) : List Nat := (List.range 16).map (fun i => b.getD (step * i % 16) 0)

/-- Every column multiplied by the circulant matrix whose first row is m. -/
def aesMix (m b : List Nat) : List Nat :=
  (List.range 16).map (fun i =>
    (List.range 4).foldl (fun x k =>
      Nat.xor x (gfMulAux 0x11B 8 (b.getD (i / 4 * 4 + (i + k) % 4) 0) (m.getD k 0))) 0)

/-- The next word of the key schedule of AES-256. -/
def aesWord (ws : List (List Nat)) (i : Nat) : List (List Nat) :=
  let t := ws.getD (i - 1) []
  let t :=
    if i % 8 = 0 then xorBytes (aesSub aesBox (t.drop 1 ++ t.take 1)) [2 ^ (i / 8 - 1), 0, 0, 0]
    else if i % 8 = 4 then aesSub aesBox t
    else t
  ws ++ [xorBytes (ws.getD (i - 8) []) t]

/-- The 15 round keys of a key of 32 bytes. -/
def aesKeys (key : List Nat) : List (List Nat) :=
  let ws := (List.range 52).foldl (fun ws i => aesWord ws (i + 8)) ((List.range 8).map (fun i => (key.drop (4 * i)).take 4))
  (List.range 15).map (fun r => ((ws.drop (4 * r)).take 4).flatten)

/-- AES-256 of one block under its round keys, and its inverse. -/
def aesEnc (ks : List (List Nat)) (b : List Nat) : List Nat :=
  let b := (List.range 13).foldl
    (fun b r => xorBytes (aesMix [2, 3, 1, 1] (aesTurn 5 (aesSub aesBox b))) (ks.getD (r + 1) []))
    (xorBytes b (ks.getD 0 []))
  xorBytes (aesTurn 5 (aesSub aesBox b)) (ks.getD 14 [])
def aesDec (ks : List (List Nat)) (b : List Nat) : List Nat :=
  let b := (List.range 13).foldl
    (fun b r => aesMix [14, 11, 13, 9] (xorBytes (aesSub aesUnbox (aesTurn 13 b)) (ks.getD (13 - r) [])))
    (xorBytes b (ks.getD 14 []))
  xorBytes (aesSub aesUnbox (aesTurn 13 b)) (ks.getD 0 [])

/-- The tweak of block j of a sector under key 2: the cipher of the sector number, times 2 for each block. -/
def xtsTweak (key sector j : Nat) : List Nat :=
  let t := leNat (aesEnc (aesKeys (leBytes 32 (key / 2 ^ 256))) (leBytes 16 sector))
  let twice := fun (x : Nat) => if 2 ^ 127 ≤ x then Nat.xor (2 * x % 2 ^ 128) 0x87 else 2 * x
  leBytes 16 (if j = 0 then t else twice t)

/-- A sector under its tweaks by the block cipher f of key 1, and back. -/
def xtsWith (f : List (List Nat) → List Nat → List Nat) (key sector : Nat) (bytes : List Nat) : List Nat :=
  let ks := aesKeys (leBytes 32 (key % 2 ^ 256))
  [0, 1].foldr (fun j r =>
    let t := xtsTweak key sector j
    xorBytes (f ks (xorBytes ((bytes.drop (16 * j)).take 16) t)) t ++ r) []
def xtsEnc (key sector : Nat) (bytes : List Nat) : List Nat := xtsWith aesEnc key sector bytes
def xtsDec (key sector : Nat) (bytes : List Nat) : List Nat := xtsWith aesDec key sector bytes

end Sys2Proof.Machine
end

