-- ==== Sys2Proof/Machine/Hbm.lean ====
section
/-! DEFINITION. The HBM path (08_memory_system.md): the interleave hash and its inverse, the burst code, correction,
logging, remap and the sector reads and writes that every requester's access is made of. Data are held as plaintext at
their local address; what the cells store wrong is held as an error pattern per sector. -/

namespace Sys2Proof.Machine

/-! The burst code (R260). -/

/-- Product in GF(2⁸) with the polynomial x⁸ + x⁴ + x³ + x² + 1. -/
def gfMul (a b : Nat) : Nat := gfMulAux 0x11D 8 a b

def gfPow (a : Nat) : Nat → Nat
  | 0 => 1
  | n + 1 => gfMul a (gfPow a n)

/-- Inverse in GF(2⁸): a^254. -/
def gfInv (a : Nat) : Nat := gfPow a 254

/-- The locator of codeword position k: the coefficient of x^(35 − k). -/
def rsLoc (k : Nat) : Nat := gfPow 2 (35 - k)

/-- The generator polynomial but for its leading coefficient 1, highest power first: the product of x − α⁰ to x − α³. -/
def rsGen : List Nat :=
  ((List.range 4).foldl (fun g i => List.zipWith Nat.xor (g ++ [0]) (0 :: g.map (gfMul (gfPow 2 i)))) [1]).drop 1

/-- The check symbols of 32 symbols: the remainder of the data polynomial times x⁴ by the generator. -/
def rsCheck (d : List Nat) : List Nat :=
  d.foldl (fun r x =>
    let f := Nat.xor x (r.getD 0 0)
    List.zipWith Nat.xor (r.drop 1 ++ [0]) (rsGen.map (gfMul f))) [0, 0, 0, 0]

/-- The value of a word of 36 symbols at α^i: its syndrome i. -/
def rsValue (w : List Nat) (i : Nat) : Nat := w.foldl (fun x c => Nat.xor (gfMul x (gfPow 2 i)) c) 0

/-- Syndrome i of an error pattern. -/
def rsSyn (e : List (Nat × Nat)) (i : Nat) : Nat :=
  e.foldl (fun x kv => Nat.xor x (gfMul kv.2 (gfPow (rsLoc kv.1) i))) 0

/-- Values at up to three positions that give the syndromes S0 to S3, if there are any: elimination on the first
equations and a check of all four. -/
def rsSolve (ps : List Nat) (syn : List Nat) : Option (List (Nat × Nat)) :=
  let xs := ps.map rsLoc
  let s0 := syn.getD 0 0
  let s1 := syn.getD 1 0
  let s2 := syn.getD 2 0
  let vals : List Nat :=
    match xs with
    | [] => []
    | [_] => [s0]
    | [a, b] =>
      let vb := gfMul (Nat.xor s1 (gfMul a s0)) (gfInv (Nat.xor a b))
      [Nat.xor s0 vb, vb]
    | a :: b :: c :: _ =>
      let t1 := Nat.xor s1 (gfMul a s0)
      let t2 := Nat.xor s2 (gfMul a s1)
      let u := Nat.xor t2 (gfMul b t1)
      let vc := gfMul u (gfInv (gfMul (Nat.xor a c) (Nat.xor b c)))
      let vb := gfMul (Nat.xor t1 (gfMul (Nat.xor a c) vc)) (gfInv (Nat.xor a b))
      [Nat.xor (Nat.xor s0 vb) vc, vb, vc]
  let e := ps.zip vals
  if (List.range 4).all (fun i => rsSyn e i == syn.getD i 0) then some (e.filter (fun kv => kv.2 != 0)) else none

/-- All position sets that the decoder of R262 tries, the erased positions always among them, smallest first. -/
def rsSets (erased : List Nat) : List (List Nat) :=
  let free := (List.range 36).filter (fun k => !erased.contains k)
  match erased with
  | [] => [[]] ++ free.map (fun k => [k]) ++
      free.foldr (fun a r => (free.filter (fun b => decide (a < b))).map (fun b => [a, b]) ++ r) []
  | _ => [erased] ++ free.map (fun k => erased ++ [k])

/-- The decoder of R262 on the 36 symbols of a burst: the correction it applies, or none when it finds the sector
uncorrectable. -/
def rsDecode (erased : List Nat) (w : List Nat) : Option (List (Nat × Nat)) :=
  let syn := (List.range 4).map (rsValue w)
  if syn.all (fun x => x == 0) then some []
  else (rsSets erased).findSome? (fun ps => rsSolve ps syn)

/-- The XOR of an error into a pattern by position. -/
def errAdd (e : List (Nat × Nat)) (kv : Nat × Nat) : List (Nat × Nat) :=
  let v := Nat.xor (tgetD e kv.1 0) kv.2
  if v = 0 then tdel e kv.1 else tset e kv.1 v

/-- Errors added to the symbols of a word, by position. -/
def wordAdd (w : List Nat) (e : List (Nat × Nat)) : List Nat :=
  e.foldl (fun w kv => w.set kv.1 (Nat.xor (w.getD kv.1 0) kv.2)) w

/-- The pins marked erased in a pseudo-channel (R262, R269 to R271). -/
def State.marked (s : State) (h pc : Nat) : List Nat :=
  let b := hbmcBase h
  [s.rd b (HBMC_REMAP.MPIN0 pc), s.rd b (HBMC_REMAP.MPIN1 pc)].take (s.rd b (HBMC_REMAP.MARKED pc))

/-- Does SP carry the symbol of SPIN for this sector: the remap is done, or its pass has moved the sector (R270). -/
def State.spareUsed (s : State) (h pc pos : Nat) : Bool :=
  s.bit (hbmcBase h) (HBMC_REMAP.SPARED pc) ||
    (s.bit (hbmcBase h) (HBMC_REMAP.BUSY pc) && decide (pos < tgetD s.remapPtr (h * 32 + pc) 0))

/-- The erased codeword positions of a sector: a marked SP (pin 36) erases the symbol that it carries. -/
def State.erasures (s : State) (h pc pos : Nat) : List Nat :=
  let sp := s.rd (hbmcBase h) (HBMC_REMAP.SPIN pc)
  if s.spareUsed h pc pos then ((s.marked h pc).filter (fun p => p != sp)).map (fun p => if p = 36 then sp else p)
  else (s.marked h pc).filter (fun p => p != 36)

/-- The codeword error of one burst: what is stored wrong and what the pins of this burst deliver wrong (`upset`, pin and
bits). A pin that SP replaces delivers nothing, and SP (pin 36) delivers its symbol. -/
def State.burstErr (s : State) (h pc pos sector : Nat) (upset : List (Nat × Nat)) : List (Nat × Nat) :=
  let used := s.spareUsed h pc pos
  let sp := s.rd (hbmcBase h) (HBMC_REMAP.SPIN pc)
  let e0 := tgetD s.herr sector []
  upset.foldl (fun e kv =>
    if kv.1 = 36 then (if used then errAdd e (sp, kv.2 % 256) else e)
    else if used && kv.1 == sp then e
    else if kv.1 < 36 then errAdd e (kv.1, kv.2 % 256) else e) e0

/-- Does any pseudo-channel of a stack run a remap pass. -/
def State.remapBusy (s : State) (h : Nat) : Bool := (List.range 32).any (fun c => s.bit (hbmcBase h) (HBMC_REMAP.BUSY c))

/-- Start a remap of pin p (R269 to R271), by request or by threshold. -/
def startRemap (s : State) (h pc p : Nat) : State :=
  let b := hbmcBase h
  let free := !(s.bit b (HBMC_REMAP.SPARED pc)) && !(s.bit b (HBMC_REMAP.BUSY pc))
  if free && !((s.marked h pc).contains p) && decide (p < 36) then
    let m := s.rd b (HBMC_REMAP.MARKED pc)
    let s := s.wr b (HBMC_REMAP.SPIN pc) p
    let s := s.wr b (HBMC_REMAP.BUSY pc) 1
    let s := s.wr b (if m = 0 then HBMC_REMAP.MPIN0 pc else HBMC_REMAP.MPIN1 pc) p
    let s := s.wr b (HBMC_REMAP.MARKED pc) (min 2 (m + 1))
    { s with remapPtr := tset s.remapPtr (h * 32 + pc) 0 }
  else s.wr b (HBMC_REMAP.REFUSED pc) 1

/-- The owner of a stack as an event's partition. -/
def State.stackPart (s : State) (h : Nat) : Option Nat :=
  if s.bit (hbmcBase h) HBMC_DOMAIN.VALID then some (s.rd (hbmcBase h) HBMC_DOMAIN.PART) else none

/-- A pin whose count reaches the threshold (R269, R271): it is remapped, or when SP is in use marked erased while fewer than
two are; SP itself, pin 36, can only be marked. A threshold that starts no remap sets REFUSED, that of a marked pin too (R276). -/
def pinThreshold (s : State) (h pc p : Nat) : State :=
  let b := hbmcBase h
  let thr := max 1 (s.rd b HBMC_CTRL.REMAP_THR)
  if s.bit b HBMC_CTRL.AUTO_REMAP && s.rd b (HBMC_PINCNT.CNT pc p) == thr then
    if (s.marked h pc).contains p then s.wr b (HBMC_REMAP.REFUSED pc) 1
    else if s.bit b (HBMC_REMAP.SPARED pc) || s.bit b (HBMC_REMAP.BUSY pc) then
      let m := s.rd b (HBMC_REMAP.MARKED pc)
      let s := s.wr b (HBMC_REMAP.REFUSED pc) 1
      let s := if m < 2 then
          let s := s.wr b (if m = 0 then HBMC_REMAP.MPIN0 pc else HBMC_REMAP.MPIN1 pc) p
          s.wr b (HBMC_REMAP.MARKED pc) (m + 1)
        else s
      raiseEv s .hbmNospare (s.stackPart h) { subj := h, detail := pc + 256 * p }
    else startRemap s h pc p
  else s

/-- A counter that stops at its maximum and sets SAT (R276). -/
def satBump (s : State) (base : Nat) (count sat : Field) : State :=
  let v := s.rd base count
  if v = 2 ^ 48 - 1 then s.wr base sat 1 else s.wr base count (v + 1)

/-- The error log of R276: the first error after VALID was cleared; a later uncorrectable error replaces a corrected one. -/
def logErr (s : State) (h sector sym : Nat) (ue scrub : Bool) : State :=
  let b := hbmcBase h
  if s.bit b HBMC_ELOG.VALID && !(ue && !(s.bit b HBMC_ELOG.UE)) then s
  else
    let s := s.wr b HBMC_ELOG.SADDR sector
    let s := s.wr b HBMC_ELOG.SYM sym
    let s := s.wr b HBMC_ELOG.UE (if ue then 1 else 0)
    let s := s.wr b HBMC_ELOG.SCRUB (if scrub then 1 else 0)
    s.wr b HBMC_ELOG.VALID 1

/-- The XTS key of the partition that owns a stack (R273). -/
def State.xtsKey (s : State) (h : Nat) : Nat :=
  match s.stackPart h with
  | some k => tgetD s.kn.xts k 0
  | none => 0

/-- The codeword that a right sector of stack h has (R260, R273): its ciphertext and the check symbols. -/
def State.codeword (s : State) (h sector : Nat) : List Nat :=
  let c := xtsEnc (s.xtsKey h) sector (mread s.mem (sector * 32) 32)
  c ++ rsCheck c

/-- One burst read and decode of a sector (R256, R262 to R264): the plaintext that it delivers, or none when it is
uncorrectable. A correction of an unmarked pin is counted and its result written back. -/
def hbmDecode (s : State) (sector : Nat) (upset : List (Nat × Nat)) (scrub : Bool) : State × Option (List Nat) :=
  let (h, pc, y, sec) := s.hbmPlace (sector * 32)
  let pos := y * 8 + sec
  let b := hbmcBase h
  let er := s.erasures h pc pos
  let e := s.burstErr h pc pos sector upset
  if e.isEmpty then (s, some (mread s.mem (sector * 32) 32))
  else
    let w := wordAdd (s.codeword h sector) e
    match rsDecode er w with
    | none =>
      let s := satBump s b HBMC_UE_COUNT.COUNT HBMC_UE_COUNT.SAT
      let s := logErr s h sector 63 true scrub
      (raiseEv s .hbmUe (s.stackPart h)
        { subj := h, status := 5, addr := sector * 32, detail := if scrub then 1 else 0 }, none)
    | some fix =>
      let data :=
        if (fix.foldl errAdd e).isEmpty then mread s.mem (sector * 32) 32
        else xtsDec (s.xtsKey h) sector ((wordAdd w fix).take 32)
      if fix.all (fun kv => er.contains kv.1) then (s, some data)
      else
        let s := { s with mem := mwrite s.mem (sector * 32) data, herr := tdel s.herr sector }
        let s := satBump s b HBMC_CE_COUNT.COUNT HBMC_CE_COUNT.SAT
        let used := s.spareUsed h pc pos
        let sp := s.rd b (HBMC_REMAP.SPIN pc)
        let pins := fix.map (fun kv => if used && kv.1 == sp then 36 else kv.1)
        let s := forEach pins s (fun s p =>
          s.wr b (HBMC_PINCNT.CNT pc p) (min 0xFFFF (s.rd b (HBMC_PINCNT.CNT pc p) + 1)))
        let sym := match pins with
          | [p] => p
          | _ => 63
        let s := logErr s h sector sym false scrub
        let s := if s.bit b HBMC_CTRL.CE_EVT then
            raiseEv s .hbmCe (s.stackPart h) { subj := h, addr := sector * 32, detail := sym }
          else s
        (forEach pins s (fun s p => pinThreshold s h pc p), some data)

/-- A read of one sector as part of an access: its 32 bytes, or none (R264). A sector with no stored error needs no
correction. -/
def sectorRead (s : State) (sector : Nat) : State × Option (List Nat) :=
  if tget s.herr sector = none then (s, some (mread s.mem (sector * 32) 32)) else hbmDecode s sector [] false

/-- A write of bytes within one sector (R255, R265): a whole sector stores a new code, a part is merged into what a read of
the sector delivers. -/
def sectorWrite (s : State) (a : Nat) (bytes : List Nat) : State × Nat :=
  let sector := a / 32
  let store := fun (s : State) (old : List Nat) =>
    { s with mem := mwrite (mwrite s.mem (sector * 32) old) a bytes, herr := tdel s.herr sector }
  if bytes.length = 32 then (store s [], 0)
  else if tget s.herr sector = none then (store s [], 0)
  else
    let (s, d) := hbmDecode s sector [] false
    match d with
    | some old => (store s old, 0)
    | none => (s, 5)

end Sys2Proof.Machine
end

