-- ==== Sys2Proof/Machine/Sync.lean ====
section
/-! DEFINITION. Sync counters and registered waits (07_synchronization.md, R219 to R234). -/

namespace Sys2Proof.Machine

/-- The add of R222 and R223, then the examination of the waits. -/
def applyAdd (s : State) (p i n : Nat) : State :=
  let c := s.ctr p i
  let sum := c.val + n
  if sum ≤ 0xFFFFFFFF then examine (s.setC p i { c with val := sum }) p i
  else
    let b := syncBase p
    let s := s.setC p i { c with val := 0xFFFFFFFF, ovf := true }
    let s := if s.bit b SYNC_STAT.OVF then s else (s.wr b SYNC_STAT.OVF_IDX i)
    let s := s.wr b SYNC_STAT.OVF 1
    let s := if !c.ovf && s.bit b SYNC_CTRL.OVF_EVT then
        raiseEv s .syncOvf (s.packPart p) { detail := i }
      else s
    examine s p i

/-- The order of the queues of a pack in class 1 of R224. -/
def qRank : QId → Nat
  | .cq t => 2 * t
  | .mq t => 2 * t + 1
  | .gq _ => 288
  | .pmq _ => 289

/-- A wait that registered in NCLK `at_` takes its place among the registered ones: last, but before those of later queues that
registered in the same NCLK (R233). -/
def State.placeWait (s : State) (q : QId) (at_ : Nat) : List QId → List QId
  | [] => [q]
  | x :: r =>
    let later := match (s.queue x).wait with
      | some w => decide (at_ < w.at_) || w.at_ == at_ && decide (qRank q < qRank x)
      | none => false
    if later then q :: x :: r else x :: s.placeWait q at_ r

/-- The NCLK is gone through again in the order of R224 and R233: from the value before it, the waits that it has released wait
again, are examined, and then after each operation. Whether a wait registers before or after an operation of its NCLK is left
open: it is taken to stand there first. OVF and its event stand once given (DESIGN CHOICE, log 108). -/
def redoNclk (s : State) (p i : Nat) : State :=
  let x := s.ctrNow p i
  let s := s.setC p i { s.ctr p i with val := x.val, now := some { x with rel := [] } }
  let s := forEach x.rel s (fun s q =>
    match (s.queue q).wait with
    | some w =>
      let s := s.setQ q { s.queue q with wait := some { w with released := false } }
      s.setC p i { s.ctr p i with waits := s.placeWait q w.at_ (s.ctr p i).waits }
    | none => s)
  forEach x.ops (examine s p i) (fun s o => if o.2.1 then applySet s p i o.2.2 else applyAdd s p i o.2.2)

/-- An operation reaches a counter (R222, R224): it is applied, and when operations of the same NCLK that come after it have been
applied already, all of them are applied again in their order. -/
def ctrOp (s : State) (p i : Nat) (o : Nat × Bool × Nat) : State :=
  let after := (s.ctrNow p i).ops.any (fun x => decide (o.1 < x.1))
  let s := noteOp s p i o
  if after then redoNclk s p i else if o.2.1 then applySet s p i o.2.2 else applyAdd s p i o.2.2

/-- The add of R222, of a class of R224. -/
def ctrAdd (s : State) (p i rank n : Nat) : State := ctrOp s p i (rank, false, n)

/-- A queue goes on past its released wait, or leaves it: what the counter's NCLK has done by then stands. -/
def passWait (s : State) (q : QId) : State :=
  match (s.queue q).wait with
  | some w => if w.released then s.setC (qPack q) w.idx { s.ctr (qPack q) w.idx with now := none } else s
  | none => s

/-- Register a wait of a queue at a counter of its own pack (R231, R232): a wait whose condition holds is released at
registration, and a threshold of 0 releases at once. When a wait of a later queue that registered in the same NCLK has been
released, the NCLK is gone through again (R233). -/
def registerWait (s : State) (q : QId) (idx thr left : Nat) (cons : Bool) : State :=
  let p := qPack q
  let w : WaitReg := { idx := idx, thr := thr, cons := cons && thr != 0, time := s.ns, at_ := s.nclk, left := left,
                       released := false }
  let s := passWait s q
  let s := s.setQ q { s.queue q with wait := some w }
  let x := s.ctrNow p idx
  let s := s.setC p idx { s.ctr p idx with waits := s.placeWait q s.nclk (s.ctr p idx).waits, now := some x }
  let behind := x.rel.any (fun r => decide (qRank q < qRank r) && (match (s.queue r).wait with
    | some v => v.at_ == s.nclk
    | none => false))
  if behind then redoNclk s p idx else tryRelease s p idx q

/-- Remove a queue's registered wait, as when the queue is abandoned or resumes elsewhere. -/
def dropWait (s : State) (q : QId) : State :=
  match (s.queue q).wait with
  | none => s
  | some w =>
    let s := passWait s q
    let p := qPack q
    let s := s.setC p w.idx { s.ctr p w.idx with waits := (s.ctr p w.idx).waits.filter (fun x => x != q) }
    s.setQ q { s.queue q with wait := none }

end Sys2Proof.Machine
end

