-- ==== Sys2Proof/Machine/Access.lean ====
section
/-! DEFINITION. Accesses to the addressed memories (01_anatomy.md R31 to R35, R553, R554; 18_errors_events.md R533, R534;
Collar checks of R434 and R435; the path of R21 for R538): scratch, pack buffers, HBM and sync counters. -/

namespace Sys2Proof.Machine

/-! Completion statuses (R533). -/
def stBadAddr : Nat := 1
def stAbsent : Nat := 2
def stDenied : Nat := 3
def stBadDest : Nat := 4
def stMemUe : Nat := 5
def stLinkLost : Nat := 6
def stXferTimeout : Nat := 7
def stHostErr : Nat := 8
def stDevFail : Nat := 9

/-- The size of the parts that an access is split into for its checks (R554): slices, scratch windows, pack buffers,
counter parts of a pack. -/
def partSize (row : Nat) : Nat :=
  match row with
  | 0 => 2 ^ 36
  | 1 => 0x400000
  | 2 => 0x800000
  | _ => 0x10000

/-- Split a range into its parts, lowest first: start and length of each. At most 160 parts lie in one row. -/
def partsOf (row : Nat) : Nat → Nat → Nat → List (Nat × Nat)
  | 0, _, _ => []
  | fuel + 1, a, n =>
    if n = 0 then []
    else
      let g := partSize row
      let len := min n (g - a % g)
      (a, len) :: partsOf row fuel (a + len) (n - len)

/-- The partition that owns a local address of a memory: HBM slice, scratch window, pack buffer or counter (R220, R251,
R435). -/
def State.ownerOf (s : State) (a : Nat) : Option Nat :=
  match rowOf a with
  | 0 => match s.stackPart (a / 2 ^ 36) with
    | some k => if s.active k then some k else none
    | none => none
  | 1 => s.packPart (packOf ((a - 0xC000000000) / 0x400000))
  | 2 => s.packPart ((a - 0xC040000000) / 0x800000)
  | 3 =>
    let p := (a - syncCtrBase) / 0x10000
    if s.inRange p ((a - syncCtrBase) % 0x10000 / 16) then s.packPart p else none
  | _ => none

/-- Is a source allowed into the memory or registers of partition k: only an active partition can be reached (R434, R435,
R441). A source of another device needs the partition's job domain, and KEYS (R381). Kennel has its own path. -/
def State.mayReach (s : State) (c : Src) (k : Nat) : Bool :=
  (c == .kennel || s.active k) && match c with
  | .unit p => s.packPart p == some k
  | .tile t => s.packPart (packOf t) == some k
  | .staged p _ => s.packPart p == some k
  | .ld n => n == k
  | .mgmt => false
  | .kennel => true
  | .collar x => decide (x < 2 ^ 31) && x / 2 ^ 28 % 8 == k
  | .far _ x => decide (x < 2 ^ 31) && x % 2 ^ 28 == (s.part k).jdom && bitAt ((s.part k).section_.getD 1 0) 1

/-- The status of one part of an access that lies in one window (R33, R35, R220, R221, R534, R538). -/
def State.partStatus (s : State) (c : Src) (a n : Nat) : Nat :=
  let row := rowOf a
  let off := (a - syncCtrBase) % 0x10000
  if row = 3 ∧ (n ≠ 4 ∨ a % 4 ≠ 0 ∨ 0x4000 ≤ off) then stBadAddr
  else
    let ok := match s.ownerOf a with
      | some k => s.mayReach c k
      | none => false
    if !ok then stDenied
    else if row = 1 ∧ !(s.tilePresent ((a - 0xC000000000) / 0x400000)) then stAbsent
    else if s.rangeCrosses c a n then stDevFail
    else 0

/-- Is a pack gated by partition idle. -/
def State.packGated (s : State) (p : Nat) : Bool := bitAt (s.rd (pmuBase (p / 8)) PMU_GATESTAT.PACKS) (p % 8)

/-- A partition leaves partition idle (R518): the clocks of its packs run again, and the conditions must hold for DELAY once more
(DEDUCED, log 89). -/
def ungate (s : State) (k : Nat) : State :=
  forEach (s.partPacks k) (s.setP k { s.part k with idleAt := none }) (fun s p =>
    let d := p / 8
    let g := s.rd (pmuBase d) PMU_GATESTAT.PACKS
    if bitAt g (p % 8) then
      let s := s.wr (pmuBase d) PMU_GATESTAT.PACKS (g - 2 ^ (p % 8))
      forEach (s.packTiles p) s (fun s t =>
        let ti := s.tile t
        match ti.gated with
        | some a => s.setT t { ti with gated := none, cycBase := ti.cycBase + (s.aclk d - a) }
        | none => s)
    else s)

/-- Something reaches a pack: when partition idle has gated packs of its partition, the partition wakes. -/
def wakePack (s : State) (p : Nat) : State :=
  match s.packPart p with
  | some k => if (s.partPacks k).any s.packGated then ungate s k else s
  | none => s

/-- The first non-zero of two statuses. -/
def firstErr (a b : Nat) : Nat := if a = 0 then b else a

/-- The sectors that a range touches: start and length within each, lowest first. -/
def sectorsOf : Nat → Nat → Nat → List (Nat × Nat)
  | 0, _, _ => []
  | fuel + 1, a, n =>
    if n = 0 then []
    else
      let len := min n (32 - a % 32)
      (a, len) :: sectorsOf fuel (a + len) (n - len)

/-- Read one part that passed its checks. -/
def partRead (s : State) (a n : Nat) : State × Nat × List Nat :=
  match rowOf a with
  | 0 =>
    let (s, d) := (sectorsOf (n / 32 + 2) a n).foldl
      (fun (x : State × Option (List Nat)) p =>
        let (s, d) := sectorRead x.1 (p.1 / 32)
        (s, match x.2, d with
          | some l, some bs => some (l ++ (bs.drop (p.1 % 32)).take p.2)
          | _, _ => none)) (s, some [])
    match d with
    | some bs => (s, 0, bs)
    | none => (s, stMemUe, [])
  | 3 =>
    let p := (a - syncCtrBase) / 0x10000
    let i := (a - syncCtrBase) % 0x10000 / 16
    let c := s.ctr p i
    let v := match a % 16 with
      | 0 => c.val
      | 8 => (if c.ovf then 1 else 0) + 2 * c.waits.length
      | _ => 0
    (s, 0, leBytes 4 v)
  | 1 => (wakePack s (packOf ((a - 0xC000000000) / 0x400000)), 0, mread s.mem a n)
  | _ => (s, 0, mread s.mem a n)

/-- An external write of scratch (R49): what it replaces is kept for the pipeline reads of the tile's next cycle to run, which is
the ACLK that the model gives the write (DESIGN CHOICE, log 118). -/
def scratchWrite (s : State) (a : Nat) (bytes : List Nat) : State :=
  let t := (a - 0xC000000000) / 0x400000
  let ti := s.tile t
  { s.setT t { ti with ext := (a, mread s.mem a bytes.length) :: ti.ext } with mem := mwrite s.mem a bytes }

/-- The class in R224 of a store to the counters of a pack: the pack's own Retrievers and tiles come through its switch. -/
def storeClass (c : Src) (p : Nat) : Nat :=
  match c with
  | .unit x => if x = p then ctrSwitch else ctrMesh
  | .staged x _ => if x = p then ctrSwitch else ctrMesh
  | .tile t => if packOf t = p then ctrSwitch else ctrMesh
  | _ => ctrMesh

/-- Write one part that passed its checks; HBM is written sector by sector. -/
def partWrite (s : State) (c : Src) (a : Nat) (bytes : List Nat) : State × Nat :=
  let n := bytes.length
  let hook := fun (s : State) a n => match s.ownerOf a with
    | some k => nfHook s k a n
    | none => s
  match rowOf a with
  | 0 =>
    (sectorsOf (n / 32 + 2) a n).foldl
      (fun (x : State × Nat) p =>
        let (s, st) := sectorWrite x.1 p.1 ((bytes.drop (p.1 - a)).take p.2)
        (if st = 0 then hook s p.1 p.2 else s, firstErr x.2 st)) (s, 0)
  | 3 =>
    let p := (a - syncCtrBase) / 0x10000
    let i := (a - syncCtrBase) % 0x10000 / 16
    let v := leNat bytes
    match a % 16 with
    | 0 => (ctrOp s p i (storeClass c p, true, v), 0)
    | 4 => (ctrAdd s p i (storeClass c p) v, 0)
    | 8 => (if v % 2 = 1 then s.setC p i { s.ctr p i with ovf := false } else s, 0)
    | _ => (s, 0)
  | 1 => (hook (scratchWrite (wakePack s (packOf ((a - 0xC000000000) / 0x400000))) a bytes) a n, 0)
  | _ => (hook { s with mem := mwrite s.mem a bytes } a n, 0)

/-- Does a range of memory cross the boundary between two rows of R31, lie in a reserved row or in register space (whose
accesses are of 4 or 8 bytes, R33), or outside the map. -/
def badRange (a n : Nat) : Bool := decide (3 < rowOf a) || rowOf a != rowOf (a + n - 1) || decide (2 ^ 40 < a + n)

/-- The unit code that names the holder of a memory address (R204, R319): its pack, or 20 for HBM. -/
def unitOf (a : Nat) : Nat :=
  match rowOf a with
  | 1 => packOf ((a - 0xC000000000) / 0x400000)
  | 2 => (a - 0xC040000000) / 0x800000
  | 3 => (a - syncCtrBase) / 0x10000
  | _ => 20

/-- The status of one part, when the access names a unit (R204, R554). -/
def State.unitStatus (s : State) (c : Src) (u : Option Nat) (a n : Nat) : Nat :=
  match u with
  | some x => if x = unitOf a then s.partStatus c a n else stBadAddr
  | none => s.partStatus c a n

/-- A read of the memories through a local address by a source, which may name a unit (R33, R554), part by part: the status
of the first failing part, and the data of the parts that pass by their place in the range. -/
def memParts (s : State) (c : Src) (u : Option Nat) (a n : Nat) : State × Nat × Tbl (List Nat) :=
  if n = 0 then (s, 0, [])
  else if badRange a n then (s, stBadAddr, [])
  else
    (partsOf (rowOf a) 200 a n).foldl
      (fun (x : State × Nat × Tbl (List Nat)) p =>
        let st := x.1.unitStatus c u p.1 p.2
        if st ≠ 0 then (x.1, firstErr x.2.1 st, x.2.2)
        else
          let (s, st, d) := partRead x.1 p.1 p.2
          (s, firstErr x.2.1 st, if st = 0 then x.2.2 ++ [(p.1 - a, d)] else x.2.2)) (s, 0, [])

/-- The order in which R534 takes the statuses that apply to one access; the others come after them. -/
def statusRank (st : Nat) : Nat :=
  match [stBadDest, stBadAddr, stAbsent, stDenied, stDevFail, stMemUe].findIdx? (fun x => x == st) with
  | some i => i
  | none => 6

/-- The status that one access takes of two that apply to it, where 0 is none (R534). -/
def firstStatus (a b : Nat) : Nat :=
  if a = 0 then b else if b = 0 then a else if statusRank b < statusRank a then b else a

/-- The status of a range, which is that of its first failing part (R554). -/
def State.rangeStatus (s : State) (c : Src) (u : Option Nat) (a n : Nat) : Nat :=
  if n = 0 then 0
  else if badRange a n then stBadAddr
  else ((partsOf (rowOf a) 200 a n).map (fun p => s.unitStatus c u p.1 p.2)).foldl firstErr 0

/-- The bytes of pieces, in order. -/
def bufBytes (l : Tbl (List Nat)) : List Nat := l.foldr (fun x r => x.2 ++ r) []

/-- A read whose data go to one place that wants all of them: a failing access delivers none. -/
def memReadU (s : State) (c : Src) (u : Option Nat) (a n : Nat) : State × Nat × List Nat :=
  let (s, st, d) := memParts s c u a n
  (s, st, if st = 0 then bufBytes d else [])

/-- A write of the memories through a local address by a source, which may name a unit (R33, R554): parts that pass are
written. -/
def memWriteU (s : State) (c : Src) (u : Option Nat) (a : Nat) (bytes : List Nat) : State × Nat :=
  let n := bytes.length
  if n = 0 then (s, 0)
  else if badRange a n then (s, stBadAddr)
  else
    (partsOf (rowOf a) 200 a n).foldl
      (fun (x : State × Nat) p =>
        let st := x.1.unitStatus c u p.1 p.2
        if st ≠ 0 then (x.1, firstErr x.2 st)
        else
          let (s, st) := partWrite x.1 c p.1 ((bytes.drop (p.1 - a)).take p.2)
          (s, firstErr x.2 st)) (s, 0)

/-- The first address of a range whose part fails, for the record of R218: the part's start, or within a readable part the
first uncorrectable sector. -/
def State.failAddr (s : State) (c : Src) (u : Option Nat) (a n : Nat) : Nat :=
  if badRange a n then a
  else
    match (partsOf (rowOf a) 200 a n).find? (fun p => s.unitStatus c u p.1 p.2 != 0) with
    | some p => p.1
    | none =>
      if rowOf a = 0 then
        match (sectorsOf (n / 32 + 2) a n).find? (fun p =>
            (sectorRead s (p.1 / 32)).2.isNone) with
        | some p => p.1 / 32 * 32
        | none => a
      else a

/-- Pieces of data are written at their places from address a upward: the first failing status and its address (R554). -/
def memWritePieces (s : State) (c : Src) (u : Option Nat) (a : Nat) (l : Tbl (List Nat)) : State × Nat × Nat :=
  l.foldl (fun (x : State × Nat × Nat) d =>
    let bad := x.1.failAddr c u (a + d.1) d.2.length
    let (s, st) := memWriteU x.1 c u (a + d.1) d.2
    if x.2.1 = 0 ∧ st ≠ 0 then (s, st, bad) else (s, x.2)) (s, 0, 0)

/-- How many bytes of pieces a write stores: those of the parts that pass, but for HBM sectors that cannot be written (R554). -/
def State.storedBytes (s : State) (c : Src) (u : Option Nat) (a : Nat) (l : Tbl (List Nat)) : Nat :=
  l.foldl (fun n d =>
    let a := a + d.1
    let len := d.2.length
    if len = 0 || badRange a len then n
    else (partsOf (rowOf a) 200 a len).foldl (fun n p =>
      if s.unitStatus c u p.1 p.2 ≠ 0 then n
      else if rowOf a ≠ 0 then n + p.2
      else (sectorsOf (p.2 / 32 + 2) p.1 p.2).foldl (fun n x =>
        if (sectorWrite s x.1 (List.replicate x.2 0)).2 = 0 then n + x.2 else n) n) n) 0

def memRead (s : State) (c : Src) (a n : Nat) : State × Nat × List Nat := memReadU s c none a n
def memWrite (s : State) (c : Src) (a : Nat) (bytes : List Nat) : State × Nat := memWriteU s c none a bytes

end Sys2Proof.Machine
end

