-- ==== Sys2Proof/Machine/Operands.lean ====
section
/-! DEFINITION. The 256-bit command: the envelope of R136, the body fields of every opcode (06_instruction_reference.md),
the AGs that a command uses, its timing numbers (R39, R60, R172) and its refusals at issue (R137, R217, R556). -/

namespace Sys2Proof.Machine

/-! The envelope (R136). -/

def cwOPCODE (w : Nat) : Nat := bitsAt w 7 0
def cwSIG (w : Nat) : Nat := bitsAt w 8 8
def cwEND (w : Nat) : Nat := bitsAt w 9 9
def cwCONT (w : Nat) : Nat := bitsAt w 10 10
def cwEVT (w : Nat) : Nat := bitsAt w 11 11
def cwTAG (w : Nat) : Nat := bitsAt w 31 16
def cwGAP (w : Nat) : Nat := bitsAt w 47 32
def cwNGAP (w : Nat) : Nat := bitsAt w 63 48
def cwREPEAT (w : Nat) : Nat := bitsAt w 84 64
def cwAM0 (w : Nat) : Nat := bitsAt w 89 88
def cwAM1 (w : Nat) : Nat := bitsAt w 91 90
def cwAM2 (w : Nat) : Nat := bitsAt w 93 92
def cwAPS (w : Nat) : Nat := bitsAt w 96 94
def cwSIGIDX (w : Nat) : Nat := bitsAt w 113 104

/-! The body of mma. -/

def mmaFA (w : Nat) : Nat := bitsAt w 131 128
def mmaFB (w : Nat) : Nat := bitsAt w 135 132
def mmaBANK (w : Nat) : Nat := bitsAt w 137 136
def mmaMROWS (w : Nat) : Nat := bitsAt w 142 138
def mmaCLR (w : Nat) : Nat := bitsAt w 145 145
def mmaFC (w : Nat) : Nat := bitsAt w 146 146
def mmaCLOG (w : Nat) : Nat := bitsAt w 149 147
def mmaTRM (w : Nat) : Nat := bitsAt w 150 150
def mmaSRB (w : Nat) : Nat := bitsAt w 152 151
def mmaSRP (w : Nat) : Nat := bitsAt w 153 153
def mmaKSH (w : Nat) : Nat := bitsAt w 158 154
def mmaSCA (w : Nat) : Nat := bitsAt w 159 159
def mmaSCB (w : Nat) : Nat := bitsAt w 160 160
def mmaSTREAM (w : Nat) : Nat := bitsAt w 191 168

/-! The body of vop. -/

def vopOP (w : Nat) : Nat := bitsAt w 133 128
def vopV (w : Nat) : Nat := bitsAt w 142 136
def vopSRCA (w : Nat) : Nat := bitsAt w 144 143
def vopBNKA (w : Nat) : Nat := bitsAt w 146 145
def vopSRCB (w : Nat) : Nat := bitsAt w 148 147
def vopBNKB (w : Nat) : Nat := bitsAt w 150 149
def vopCIMM (w : Nat) : Nat := bitsAt w 151 151
def vopBNKC (w : Nat) : Nat := bitsAt w 153 152
def vopDST (w : Nat) : Nat := bitsAt w 154 154
def vopBNKD (w : Nat) : Nat := bitsAt w 156 155
def vopFA (w : Nat) : Nat := bitsAt w 160 157
def vopFB (w : Nat) : Nat := bitsAt w 164 161
def vopLSEL (w : Nat) : Nat := bitsAt w 174 168
def vopIMM (w : Nat) : Nat := bitsAt w 223 192
def vopIMMC (w : Nat) : Nat := bitsAt w 255 224

/-! The body of vtr. -/

def vtrFN (w : Nat) : Nat := bitsAt w 130 128
def vtrV (w : Nat) : Nat := bitsAt w 142 136
def vtrSRCA (w : Nat) : Nat := bitsAt w 144 143
def vtrBNKA (w : Nat) : Nat := bitsAt w 146 145
def vtrDST (w : Nat) : Nat := bitsAt w 154 154
def vtrBNKD (w : Nat) : Nat := bitsAt w 156 155
def vtrFA (w : Nat) : Nat := bitsAt w 160 157

/-! The body of vcvt. -/

def vcvtFS (w : Nat) : Nat := bitsAt w 131 128
def vcvtFD (w : Nat) : Nat := bitsAt w 135 132
def vcvtV (w : Nat) : Nat := bitsAt w 142 136
def vcvtSRCA (w : Nat) : Nat := bitsAt w 144 143
def vcvtBNKA (w : Nat) : Nat := bitsAt w 146 145
def vcvtRM (w : Nat) : Nat := bitsAt w 147 147
def vcvtSRB (w : Nat) : Nat := bitsAt w 149 148
def vcvtOM (w : Nat) : Nat := bitsAt w 150 150
def vcvtSCS (w : Nat) : Nat := bitsAt w 151 151
def vcvtSCD (w : Nat) : Nat := bitsAt w 152 152
def vcvtDST (w : Nat) : Nat := bitsAt w 153 153
def vcvtBNKD (w : Nat) : Nat := bitsAt w 155 154
def vcvtSTREAM (w : Nat) : Nat := bitsAt w 191 168

/-! The body of vres. -/

def vresFX (w : Nat) : Nat := bitsAt w 131 128
def vresFD (w : Nat) : Nat := bitsAt w 135 132
def vresV (w : Nat) : Nat := bitsAt w 142 136
def vresXBANK (w : Nat) : Nat := bitsAt w 143 143
def vresBNKX (w : Nat) : Nat := bitsAt w 145 144
def vresRM (w : Nat) : Nat := bitsAt w 146 146
def vresSRB (w : Nat) : Nat := bitsAt w 148 147
def vresOM (w : Nat) : Nat := bitsAt w 149 149
def vresSTREAM (w : Nat) : Nat := bitsAt w 191 168
def vresNOFF (w : Nat) : Nat := bitsAt w 213 192

/-! The body of agld. -/

def agldAGN (w : Nat) : Nat := bitsAt w 129 128
def agldSEL (w : Nat) : Nat := bitsAt w 135 130
def agldVALUE (w : Nat) : Nat := bitsAt w 255 192

/-! The body of move. -/

def moveSRC (w : Nat) : Nat := bitsAt w 170 128
def moveDST (w : Nat) : Nat := bitsAt w 213 171
def moveLEN (w : Nat) : Nat := bitsAt w 245 214

/-! The body of rcopy. -/

def rcopyLADDR (w : Nat) : Nat := bitsAt w 167 128
def rcopyFAREP (w : Nat) : Nat := bitsAt w 191 168
def rcopyFARADDR (w : Nat) : Nat := bitsAt w 231 192
def rcopyFARHOST (w : Nat) : Nat := bitsAt w 231 168
def rcopyDIR (w : Nat) : Nat := bitsAt w 232 232
def rcopyHOST (w : Nat) : Nat := bitsAt w 233 233
def rcopyRET (w : Nat) : Nat := bitsAt w 235 234
def rcopyLEN32 (w : Nat) : Nat := bitsAt w 255 236

/-! The body of coll. -/

def collDADDR (w : Nat) : Nat := bitsAt w 167 128
def collSEQ (w : Nat) : Nat := bitsAt w 183 168

/-! The body of signal. -/

def signalKIND (w : Nat) : Nat := bitsAt w 129 128
def signalEP (w : Nat) : Nat := bitsAt w 153 130
def signalIDX (w : Nat) : Nat := bitsAt w 163 154
def signalVEC (w : Nat) : Nat := bitsAt w 140 130
def signalHADDR (w : Nat) : Nat := bitsAt w 191 130
def signalN (w : Nat) : Nat := bitsAt w 223 192

/-! The body of wait. -/

def waitIDX (w : Nat) : Nat := bitsAt w 137 128
def waitCONS (w : Nat) : Nat := bitsAt w 138 138
def waitTHR (w : Nat) : Nat := bitsAt w 191 160

/-! The body of skipIf. -/

def skipIfIDX (w : Nat) : Nat := bitsAt w 137 128
def skipIfZERO (w : Nat) : Nat := bitsAt w 138 138
def skipIfNSKIP (w : Nat) : Nat := bitsAt w 179 160

/-! The body of overlay. -/

def overlayOVL (w : Nat) : Nat := bitsAt w 131 128

/-! The body of phase. -/

def phasePHID (w : Nat) : Nat := bitsAt w 133 128

/-! The body of mark. -/

def markCLASS (w : Nat) : Nat := bitsAt w 135 128

/-! The body of save. -/

def saveADDR (w : Nat) : Nat := bitsAt w 167 128

/-! Opcodes (R172). -/

def opNOP : Nat := 0x01
def opMMA : Nat := 0x10
def opMMALB : Nat := 0x11
def opVOP : Nat := 0x20
def opVTR : Nat := 0x21
def opVCVT : Nat := 0x22
def opVRES : Nat := 0x23
def opAGLD : Nat := 0x28
def opMOVE : Nat := 0x30
def opRCOPY : Nat := 0x31
def opCOLL : Nat := 0x40
def opSIGNAL : Nat := 0x50
def opWAIT : Nat := 0x51
def opSKIPIF : Nat := 0x52
def opOVERLAY : Nat := 0x58
def opPHASE : Nat := 0x59
def opMARK : Nat := 0x5A
def opSAVE : Nat := 0x60
def opRESTORE : Nat := 0x61

/-- Is the command a matrix command. -/
def isMatrix (w : Nat) : Bool := cwOPCODE w == opMMA || cwOPCODE w == opMMALB

/-- Is the command a vector command. -/
def isVector (w : Nat) : Bool := decide (0x20 ≤ cwOPCODE w) && decide (cwOPCODE w ≤ 0x23)

/-- GAP, where 0 and 1 act as 2 (R136). -/
def gapOf (w : Nat) : Nat := max 2 (cwGAP w)

/-- NGAP, where 0 and 1 act as 2 (R136). -/
def ngapOf (w : Nat) : Nat := max 2 (cwNGAP w)

/-- The vectors per repeat (R182). -/
def vecV (w : Nat) : Nat := bitsAt w 142 136

/-- Does a VOP operation take b (R187). -/
def vopUsesB (op : Nat) : Bool :=
  [0x00, 0x01, 0x02, 0x03, 0x08, 0x09, 0x0A, 0x0B, 0x0C, 0x0D, 0x10].contains op

/-- Does a VOP operation take c (R187). -/
def vopUsesC (op : Nat) : Bool := op == 0x03 || op == 0x0D

/-- The AGs that a command uses (R172, R187, R195, R197). -/
def agsUsed (w : Nat) : List Nat :=
  let op := cwOPCODE w
  if isMatrix w then [0, 1]
  else if op = opVOP then
    (if vopSRCA w = 0 then [0] else []) ++ (if vopUsesB (vopOP w) && vopSRCB w == 0 then [1] else []) ++
      (if vopDST w = 0 then [2] else [])
  else if op = opVTR then (if vtrSRCA w = 0 then [0] else []) ++ (if vtrDST w = 0 then [2] else [])
  else if op = opVCVT then (if vcvtSRCA w = 0 then [0] else []) ++ (if vcvtDST w = 0 then [2] else [])
  else if op = opVRES then [0] ++ (if vresXBANK w = 0 then [1] else []) ++ [2]
  else []

/-- The address mode that a command gives an AG (R136). -/
def amOf (w n : Nat) : Nat :=
  match n with
  | 0 => cwAM0 w
  | 1 => cwAM1 w
  | _ => cwAM2 w

/-- Rows per row group: 4 on the array, 16 on the low-bit lanes (R38, R45). -/
def rowsPerGroup (w : Nat) : Nat := if cwOPCODE w = opMMALB then 16 else 4

/-- M of a matrix command (R177, R181). -/
def matM (w : Nat) : Nat :=
  if cwOPCODE w = opMMALB then 16 * (bitsAt w 140 138 + 1) else 4 * (mmaMROWS w + 1)

/-- Row groups of a pass. -/
def matGroups (w : Nat) : Nat := matM w / rowsPerGroup w

/-- Format of A and of B. -/
def matFA (w : Nat) : Fmt := (fmtOf (mmaFA w)).getD .e4m3
def matFB (w : Nat) : Fmt := (fmtOf (mmaFB w)).getD .e4m3

/-- Elements of a block (R38, R39): 16 at the half rate, else 32. -/
def blockElems (f : Fmt) : Nat := if fmtWidth f = 16 then 16 else 32

/-- Bytes of one column record of a B block, and of an A segment (R39, R42). -/
def recBytes (f : Fmt) : Nat := blockElems f * fmtWidth f / 8

/-- LB (R39, R178, R181): B block bytes over 128 a cycle. -/
def matLB (w : Nat) : Nat := 96 * recBytes (matFB w) / 128

/-- Is the matrix command on the integer path (R178, R181). -/
def isIntPath (w : Nat) : Bool := matFA w == .int8

/-- C of a matrix command (R106). -/
def matC (w : Nat) : Nat := 2 ^ mmaCLOG w

/-- The shift k of a scaled replay (R117). -/
def matK (w : Nat) : Nat := if mmaKSH w = 0 then 8 else mmaKSH w

/-- Does the command carry the scaled-replay flag on the float path of MMA (R117, R180, R181). -/
def isSrp (w : Nat) : Bool := cwOPCODE w == opMMA && mmaSRP w == 1 && !(isIntPath w)

/-- L of a VOP operation (R187). -/
def vopL (op : Nat) : Nat :=
  if op ≤ 3 then 4 else if op = 0x1C then 14 else if op = 0x18 ∨ op = 0x19 then 3 else 2

/-- L of a vector command (R60, R189, R193, R197). -/
def vecL (w : Nat) : Nat :=
  if cwOPCODE w = opVOP then vopL (vopOP w)
  else if cwOPCODE w = opVTR then 12
  else if cwOPCODE w = opVCVT then 3
  else 6

/-- The drain cycle E of a command whose last repeat issues at `last` and whose first issues at `s0` (R172, R173). -/
def drainOf (w s0 last : Nat) (noWork : Bool) : Nat :=
  if noWork then s0
  else if isMatrix w then last + 22 + matLB w + matGroups w
  else if isVector w then last + 5 + vecL w + vecV w
  else if cwOPCODE w = opAGLD then last + 1
  else s0

/-- Queue kinds: 0 CQ, 1 MQ, 2 GQ, 3 PMQ (R244). -/
def qKind : QId → Nat
  | .cq _ => 0
  | .mq _ => 1
  | .gq _ => 2
  | .pmq _ => 3

/-- The queue kinds that accept an opcode (R172); none when the opcode is unassigned. -/
def opQueues (op : Nat) : List Nat :=
  if op = 0x01 ∨ op = 0x50 ∨ op = 0x51 ∨ op = 0x52 ∨ op = 0x58 ∨ op = 0x59 ∨ op = 0x5A then [0, 1, 2, 3]
  else if op = 0x10 ∨ op = 0x11 ∨ op = 0x20 ∨ op = 0x21 ∨ op = 0x22 ∨ op = 0x23 ∨ op = 0x28 ∨ op = 0x60 ∨ op = 0x61
  then [0]
  else if op = 0x30 ∨ op = 0x31 then [1, 3]
  else if op = 0x40 then [2]
  else []

/-! Refusals at issue. -/

/-- Is a reserved bit of the envelope set (R136). -/
def envReserved (w : Nat) : Bool :=
  bitsAt w 15 12 != 0 || bitsAt w 87 85 != 0 || bitsAt w 103 97 != 0 || bitsAt w 127 114 != 0

/-- A format code of a field, when it is assigned (R176). -/
def fmtIn (c : Nat) (l : List Fmt) : Bool :=
  match fmtOf c with
  | some f => l.contains f
  | none => false

def narrow5 : List Fmt := [.e4m3, .e5m2, .e3m2, .e2m3, .e2m1]
def small3 : List Fmt := [.e3m2, .e2m3, .e2m1]
def fp8s : List Fmt := [.e4m3, .e5m2]
def halves : List Fmt := [.bf16, .fp16]
def vuFmts : List Fmt := [.fp32, .bf16, .fp16]

/-- Is the format combination of a command illegal: BAD_FORMAT (R176, R178, R181, R186, R189, R194, R197). -/
def badFormat (w : Nat) : Bool :=
  let op := cwOPCODE w
  if op = opMMA then
    !((fmtIn (mmaFA w) narrow5 && fmtIn (mmaFB w) narrow5) ||
      (fmtIn (mmaFA w) [.int8] && fmtIn (mmaFB w) [.int8, .int4]) ||
      (fmtIn (mmaFA w) halves && fmtIn (mmaFB w) halves))
  else if op = opMMALB then
    !(fmtIn (mmaFA w) [.e4m3, .e5m2, .int8] && fmtIn (mmaFB w) [.int2, .bin1])
  else if op = opVOP then
    (vopSRCA w == 0 && !(fmtIn (vopFA w) vuFmts)) ||
      (vopUsesB (vopOP w) && vopSRCB w == 0 && !(fmtIn (vopFB w) vuFmts))
  else if op = opVTR then vtrSRCA w == 0 && !(fmtIn (vtrFA w) vuFmts)
  else if op = opVCVT then
    let src :=
      if vcvtSRCA w = 0 then fmtIn (vcvtFS w) (narrow5 ++ [.int8, .bf16, .fp16, .fp32])
      else if vcvtSRCA w = 1 then fmtIn (vcvtFS w) [.fp32, .int32]
      else fmtIn (vcvtFS w) [.fp32]
    let tgt :=
      if fmtIn (vcvtFS w) (narrow5 ++ [.int8]) then fmtIn (vcvtFD w) [.fp32]
      else fmtIn (vcvtFD w) (narrow5 ++ [.int8, .bf16, .fp16, .fp32])
    !(src && tgt && (vcvtDST w == 0 || fmtIn (vcvtFD w) [.fp32]))
  else if op = opVRES then
    (vresXBANK w == 0 && !(fmtIn (vresFX w) vuFmts)) || !(fmtIn (vresFD w) [.bf16, .fp16, .e4m3, .e5m2, .int8])
  else false

/-- NEED_SCALE (R78, R179, R195). -/
def needScale (w : Nat) : Bool :=
  let op := cwOPCODE w
  if op = opMMA then
    (fmtIn (mmaFA w) small3 && mmaSCA w == 0) || (fmtIn (mmaFB w) small3 && mmaSCB w == 0)
  else if op = opVCVT then
    (vcvtSRCA w == 0 && fmtIn (vcvtFS w) small3 && vcvtSCS w == 0) || (fmtIn (vcvtFD w) small3 && vcvtSCD w == 0)
  else false

/-- BAD_SCALE (R179, R181, R195). -/
def badScale (w : Nat) : Bool :=
  let op := cwOPCODE w
  if op = opMMA then
    (mmaSCA w == 1 && !(fmtIn (mmaFA w) narrow5)) || (mmaSCB w == 1 && !(fmtIn (mmaFB w) narrow5))
  else if op = opMMALB then mmaSCA w == 1 || mmaSCB w == 1
  else if op = opVCVT then
    (vcvtSCS w == 1 && !(vcvtSRCA w == 0 && fmtIn (vcvtFS w) narrow5)) ||
      (vcvtSCD w == 1 && !(fmtIn (vcvtFD w) narrow5))
  else false

/-- SRP_FLAGS (R117, R180). -/
def srpFlags (w : Nat) : Bool := isSrp w && (mmaCLR w == 0 || mmaFC w == 0)

/-- BAD_FIELD: a reserved body bit, or a field value outside its range (R175 and each opcode's table). -/
def badField (w : Nat) : Bool :=
  let op := cwOPCODE w
  let z := fun hi lo => bitsAt w hi lo != 0
  if op = opMMA then z 144 143 || z 167 161 || z 255 192 || (!(isIntPath w) && mmaCLOG w == 7)
  else if op = opMMALB then
    z 142 141 || z 144 143 || z 167 161 || z 255 192 || mmaSRP w == 1 || (!(isIntPath w) && mmaCLOG w == 7)
  else if op = opVOP then
    z 135 134 || z 167 165 || z 191 175 || decide (96 < vecV w) || vopSRCA w == 3 ||
      (vopUsesB (vopOP w) && vopSRCB w == 3) ||
      !((vopUsesB (vopOP w) || [0x0E, 0x0F, 0x18, 0x19, 0x1C].contains (vopOP w)))
  else if op = opVTR then z 135 131 || z 153 147 || z 255 161 || decide (96 < vecV w) || decide (2 ≤ vtrSRCA w)
  else if op = opVCVT then z 167 156 || z 255 192 || decide (96 < vecV w) || vcvtSRCA w == 3
  else if op = opVRES then z 167 150 || z 255 214 || decide (96 < vecV w) || vresNOFF w % 64 != 0
  else if op = opAGLD then z 191 136 || agldAGN w == 3 || decide (16 < agldSEL w)
  else if op = opMOVE then
    let n := cwREPEAT w * moveLEN w
    let sameDev := moveSRC w / 2 ^ 40 == moveDST w / 2 ^ 40
    z 255 246 || (sameDev && n != 0 && decide (moveSRC w < moveDST w + n) && decide (moveDST w < moveSRC w + n))
  else if op = opRCOPY then false
  else if op = opCOLL then z 255 184
  else if op = opSIGNAL then
    match signalKIND w with
    | 0 => z 191 164 || z 255 224
    | 1 => z 255 141
    | 2 => z 255 224
    | _ => true
  else if op = opWAIT then z 159 139 || z 255 192
  else if op = opSKIPIF then z 159 139 || z 255 180
  else if op = opOVERLAY then z 255 132
  else if op = opPHASE then z 255 134
  else if op = opMARK then z 255 136
  else if op = opNOP then z 255 128
  else if op = opSAVE ∨ op = opRESTORE then z 255 168
  else false

/-- BAD_ALIGN (R202, R204, R205, R212). -/
def badAlign (w : Nat) : Bool :=
  let op := cwOPCODE w
  if op = opMOVE then moveSRC w % 32 != 0 || moveDST w % 32 != 0 || moveLEN w % 32 != 0
  else if op = opRCOPY then
    rcopyLADDR w % 32 != 0 || (if rcopyHOST w = 1 then rcopyFARHOST w else rcopyFARADDR w) % 32 != 0
  else if op = opCOLL then collDADDR w % 64 != 0
  else if op = opSAVE ∨ op = opRESTORE then saveADDR w % 4096 != 0
  else false

end Sys2Proof.Machine
end

