-- ==== Sys2Proof/Machine/AgUnits.lean ====
section
/-! DEFINITION. Address generators (R53, R54, R71, R87, R88, R148 to R156, R555) and their address programs (R153, R154). -/

namespace Sys2Proof.Machine

def State.agUnit (s : State) (t n : Nat) : AgUnit := tgetD (s.tile t).ags n {}
def State.setAg (s : State) (t n : Nat) (u : AgUnit) : State :=
  let ti := s.tile t
  s.setT t { ti with ags := tset ti.ags n u }

/-- What the record of a tile's event holds beside its code: the queue word and the retired count of its CQ (R536). -/
def State.tileEv (s : State) (t subj : Nat) : EvData :=
  { qword := qWord (.cq t), subj := subj, retired := s.rd (qBase (.cq t)) SEQ_QRETIRED.COUNT }

/-- Raise a tile event when its status bit rises while its enable is set (R69). -/
def raiseTile (s : State) (t : Nat) (f en : Field) (e : Ev) (subj : Nat) : State :=
  let b := tileBase t
  if s.bit b f then s
  else
    let s := s.wr b f 1
    if s.bit b en then raiseEv s e (s.packPart (packOf t)) (s.tileEv t subj) else s

/-- Wrap an address into the tile's scratch (R53). -/
def wrap22 (x : Int) : Nat := (x % (2 ^ 22 : Int)).toNat

/-- A signed 23-bit stride field. -/
def State.stride (s : State) (base : Nat) (f : Field) : Int := sext 23 (s.rd base f)

/-- The loop sum of R53: Σ index × stride. -/
def State.loopSum (s : State) (t n : Nat) (ix : List Nat) (scale : Int → Int) : Int :=
  (List.range 4).foldl
    (fun x k => x + (ix.getD k 0 : Int) * scale (s.stride (agBase t n) (AG_LOOP.STRIDE k))) 0

/-- The mode in which AG n works (R54, R71): 3 acts as 0. -/
def State.agMode (s : State) (t n : Nat) : Nat := s.rd (agBase t n) AG_CTRL.MODE % 3

/-- The repeat base of AG n (R53, R150, R156): recomputed from the registers in auto-increment mode, taken in the
others. -/
def State.repBase (s : State) (t n : Nat) (rp : Rep) : Nat :=
  if s.agMode t n = 0 then
    wrap22 (s.rd (agBase t n) AG_BASE.BASE + s.loopSum t n (rp.ix.getD n []) id)
  else rp.base.getD n 0

/-- A byte stride as a scale stride for elements w bits wide, truncated toward zero (R87, R88). -/
def scaleStride (w : Nat) (x : Int) : Int := Int.tdiv x (4 * w)

/-- Segment or vector address number `i` of the repeat (R53). -/
def State.agAddr (s : State) (t n : Nat) (rp : Rep) (i : Nat) : Nat :=
  wrap22 (s.repBase t n rp + (i : Int) * s.stride (agBase t n) AG_ROW.STRIDE)

/-- Scale address of row or vector `i` of the repeat (R87, R151, R195). -/
def State.agScale (s : State) (t n : Nat) (rp : Rep) (w i : Nat) : Nat :=
  let b := agBase t n
  let base : Int :=
    if s.agMode t n = 0 then
      s.rd b AG_SCALE.BASE + s.loopSum t n (rp.ix.getD n []) (scaleStride w)
    else s.rd b AG_SCALE.BASE + (rp.base.getD n 0 / (4 * w) : Nat)
  wrap22 (base + (i : Int) * scaleStride w (s.stride b AG_ROW.STRIDE))

/-- A segment under R50: the address rounded down to 8, bytes beyond the 64-byte row cut off. -/
def mkSeg (a len : Nat) : Seg :=
  let a8 := a / 8 * 8
  let off := a8 % 64
  { row := a8 / 64, off := off, len := min len (64 - off), pad := len - min len (64 - off) }

/-- Does a segment break R50. -/
def segBreaks (a len : Nat) : Bool := a % 8 != 0 || decide (64 < a / 8 * 8 % 64 + len)

/-- Single bytes or short runs within a row, without the rule of 8 (the scale ports, R43). -/
def mkScaleSeg (a len : Nat) : Seg :=
  { row := a / 64, off := a % 64, len := min len (64 - a % 64), pad := len - min len (64 - a % 64) }

/-- The whole 64-byte rows of a vector of `bytes` bytes (R183). -/
def mkVec (a bytes : Nat) : List Seg :=
  (List.range ((bytes + 63) / 64)).map (fun k =>
    { row := (a / 64 + k) % 2 ^ 16, off := 0, len := min 64 (bytes - 64 * k), pad := 0 })

/-- The loop indices of AG_POS. -/
def State.agPos (s : State) (t n : Nat) : List Nat := (List.range 4).map (fun k => s.rd (agBase t n) (AG_POS.I k))

def State.setPos (s : State) (t n : Nat) (ix : List Nat) : State :=
  forEach (List.range 4) s (fun s k => s.wr (agBase t n) (AG_POS.I k) (ix.getD k 0))

/-- The list position in bits [31:0] of AG_POS (R149). -/
def State.listPos (s : State) (t n : Nat) : Nat :=
  s.rd (agBase t n) (AG_POS.I 0) + 65536 * s.rd (agBase t n) (AG_POS.I 1)

def State.setListPos (s : State) (t n p : Nat) : State :=
  (s.wr (agBase t n) (AG_POS.I 0) p).wr (agBase t n) (AG_POS.I 1) (p / 65536)

/-- One step of the loop nest (R53, R149). -/
def State.advance (s : State) (t n : Nat) (ix : List Nat) : List Nat :=
  let cnt := fun k => s.rd (agBase t n) (AG_LOOP.COUNT k)
  ((List.range 4).foldl (fun (x : List Nat × Bool) k =>
    let i := ix.getD k 0
    if x.2 then
      if i + 1 ≥ cnt k then (x.1 ++ [0], true) else (x.1 ++ [i + 1], false)
    else (x.1 ++ [i], false)) ([], true)).1

/-- A push into an AG FIFO of 64 entries, kept and unread together (R71, R153, R555). -/
def agPush (s : State) (t n v : Nat) : State :=
  let u := s.agUnit t n
  if 64 ≤ u.fifo.length + u.kept.length then s.wr (agBase t n) AG_FIFO_STAT.OVF 1
  else s.setAg t n { u with fifo := u.fifo ++ [v % 2 ^ 22] }

/-- AG n takes the base of a repeat in the cycle after its issue, and its position moves on (R149, R150, R156). AG_POS moves
in that cycle, while the repeat emits from the indices that it was issued with (R53; DESIGN CHOICE, log 144). AG_CUR keeps
the base formed here when AG_BASE or AG_LOOP is loaded while the repeat still emits (R54, R71; DESIGN CHOICE, log 145). -/
def agTake (s : State) (t n : Nat) (rp : Rep) : State × Nat :=
  let b := agBase t n
  let u := s.agUnit t n
  match s.agMode t n with
  | 1 =>
    match u.fifo with
    | [] => (raiseTile s t TILE_STAT.AG_UNDER TILE_CTRL.UNDER_EVT .tileAgUnder n, s.rd b AG_CUR.ADDR)
    | v :: r =>
      let s := s.setAg t n { u with fifo := r, kept := if u.keeping then u.kept ++ [v] else u.kept }
      (s.wr b AG_CUR.ADDR v, v)
  | 2 =>
    let p := s.listPos t n
    let v := u.row.getD (p % 16) 0 % 2 ^ 22
    ((s.setListPos t n (p + 1)).wr b AG_CUR.ADDR v, v)
  | _ =>
    let v := s.repBase t n rp
    ((s.setPos t n (s.advance t n (rp.ix.getD n []))).wr b AG_CUR.ADDR v, v)

/-! Address programs. -/

/-- Word k of the program of AG n. -/
def State.apWord (s : State) (t n k : Nat) : Nat := s.rd (apBase t n) (SEQ_APWORD.WORD k)
def State.apReg (s : State) (t n k : Nat) : Nat := s.rd (apBase t n) (SEQ_APREG.VALUE k)

/-- Stop an address program, setting ERR when an illegal instruction stopped it (R154). -/
def apStop (s : State) (t n : Nat) (err : Bool) : State :=
  let b := apBase t n
  let s := s.wr b SEQ_APSTAT.RUN 0
  let s := s.setAg t n { s.agUnit t n with stack := [], waitBlk := false }
  if err then s.wr b SEQ_APSTAT.ERR 1 else s

/-- Close the loops whose body ends at the next word: each pass back takes no time (R154). -/
def loopEnd : Nat → List (Nat × Nat × Nat) → Nat → Nat × List (Nat × Nat × Nat)
  | 0, st, pc => (pc, st)
  | _, [], pc => (pc, [])
  | fuel + 1, (first, len, left) :: st, pc =>
    if first + len ≤ pc then
      if 1 < left then (first, (first, len, left - 1) :: st) else loopEnd fuel st pc
    else (pc, (first, len, left) :: st)

/-- Go on at word pc: loops close, and passing word 31 stops the program (R153). -/
def apGoto (s : State) (t n pc : Nat) (stack : List (Nat × Nat × Nat)) : State :=
  let (pc, stack) := loopEnd 5 stack pc
  if 32 ≤ pc then (apStop s t n false).wr (apBase t n) SEQ_APSTAT.PC 0
  else (s.setAg t n { s.agUnit t n with stack := stack }).wr (apBase t n) SEQ_APSTAT.PC pc

/-- The instruction class of a program word: its top four bits (R154). -/
def apOp (w : Nat) : Nat := bitsAt w 31 28

/-- MOVI of R154. `held` is the register that an AGLD writes in the same cycle and that keeps its value (R200). -/
def apSet (s : State) (t n k v : Nat) (held : Option Nat) : State :=
  if held = some k then s else s.wr (apBase t n) (SEQ_APREG.VALUE k) (v % 2 ^ 22)

/-- One instruction of the address program of AG n (R154). A LOOP met with four loops on the stack is a fifth nested one whatever
its count is (DESIGN CHOICE, log 149). -/
def apExec (s : State) (t n : Nat) (held : Option Nat) : State :=
  let pc := s.rd (apBase t n) SEQ_APSTAT.PC
  let w := s.apWord t n pc
  let d := bitsAt w 27 25
  let a := bitsAt w 24 22
  let c := bitsAt w 21 19
  let st := (s.agUnit t n).stack
  match apOp w with
  | 0 => apStop s t n false
  | 1 => apGoto (apSet s t n d (bitsAt w 21 0) held) t n (pc + 1) st
  | 2 => apGoto (apSet s t n d (wrap22 (s.apReg t n a + sext 16 w)) held) t n (pc + 1) st
  | 3 => apGoto (apSet s t n d (s.apReg t n a + s.apReg t n c) held) t n (pc + 1) st
  | 4 =>
    let v := s.apReg t n a
    apGoto (apSet (agPush s t n v) t n a (wrap22 (v + sext 16 w)) held) t n (pc + 1) st
  | 5 =>
    let len := bitsAt w 27 24
    let cnt := bitsAt w 15 0
    if len = 0 ∨ 4 ≤ st.length then apStop s t n true
    else if cnt = 0 then apGoto s t n (pc + 1 + len) st
    else apGoto s t n (pc + 1) ((pc + 1, len, cnt) :: st)
  | _ => apStop s t n true

/-- The program of AG n starts at word 0 in cycle c: the loop stack is emptied and the registers keep their values (R153). -/
def apStart (s : State) (t n c : Nat) : State :=
  let s := s.setAg t n { s.agUnit t n with stack := [], apNext := c, waitBlk := false }
  (s.wr (apBase t n) SEQ_APSTAT.PC 0).wr (apBase t n) SEQ_APSTAT.RUN 1

/-- One ACLK of the address program unit of AG n: a start that falls due, or the second cycle of an instruction. A
preemption stops the programs (R160). An instruction in its second cycle when a start falls due is dropped (R153; DESIGN CHOICE,
log 147). -/
def apClock (s : State) (t n c : Nat) (held : Option Nat) : State :=
  let u := s.agUnit t n
  if (s.tile t).preempting || u.waitBlk && u.starts.isEmpty then s
  else
  let s :=
    if u.starts.contains c then
      apStart (s.setAg t n { u with starts := u.starts.filter (fun x => decide (c < x)) }) t n c
    else s
  let u := s.agUnit t n
  if s.bit (apBase t n) SEQ_APSTAT.RUN && c == u.apNext + 1 then
    let s := apExec s t n held
    s.setAg t n { s.agUnit t n with apNext := c + 1 }
  else s

end Sys2Proof.Machine
end

