-- ==== Sys2Proof/Machine/Trans.lean ====
section
/-! DEFINITION. The transcendentals of VTR (06_instruction_reference.md, R189 to R192): the reductions, the coefficients
of R191 computed from their own definition in exact rational and wide fixed-point arithmetic, and the special cases. -/

namespace Sys2Proof.Machine

/-- Fraction bits of the fixed-point numbers that the coefficient values are computed in. -/
def fixB : Nat := 160

/-- One in fixed point. -/
def fixOne : Int := (2 ^ fixB : Nat)

/-- Product of two fixed-point numbers. -/
def fixMul (a b : Int) : Int := a * b / fixOne

/-- The exponential series: Σ y^n / n!, term by term. -/
def expSeries (y : Int) : Nat → Nat → Int → Int
  | 0, _, _ => 0
  | fuel + 1, n, term => term + expSeries y fuel (n + 1) (fixMul term y / (n + 1 : Nat))

/-- e^y for a fixed-point y of moderate size. -/
def fixExp (y : Int) : Int := expSeries y 120 0 fixOne

/-- The series z + z³/3 + z⁵/5 + … of the inverse hyperbolic tangent. -/
def atanhSeries (z2 : Int) : Nat → Nat → Int → Int
  | 0, _, _ => 0
  | fuel + 1, n, pow => pow / (2 * n + 1 : Nat) + atanhSeries z2 fuel (n + 1) (fixMul pow z2)

/-- Natural logarithm of num/den, from 2·atanh((num − den)/(num + den)). -/
def fixLn (num den : Nat) : Int :=
  let z : Int := ((num : Int) - den) * fixOne / (num + den : Nat)
  2 * atanhSeries (fixMul z z) 110 0 z

/-- The series z − z³/3 + z⁵/5 − … of the inverse tangent. -/
def atanSeries (z2 : Int) : Nat → Nat → Int → Int
  | 0, _, _ => 0
  | fuel + 1, n, pow => pow / (2 * n + 1 : Nat) - atanSeries z2 fuel (n + 1) (fixMul pow z2)

/-- π by Machin's formula 16·atan(1/5) − 4·atan(1/239). -/
def fixPi : Int :=
  let a := fixOne / 5
  let b := fixOne / 239
  16 * atanSeries (fixMul a a) 80 0 a - 4 * atanSeries (fixMul b b) 80 0 b

/-- The sine series y − y³/3! + y⁵/5! − … -/
def sinSeries (y2 : Int) : Nat → Nat → Int → Int
  | 0, _, _ => 0
  | fuel + 1, n, term => term - sinSeries y2 fuel (n + 1) (fixMul term y2 / ((2 * n + 2) * (2 * n + 3) : Nat))

/-- Sine of r/192 of a turn, for r from 0 to 48. -/
def fixSinTurn (r : Nat) : Int :=
  if r = 48 then fixOne
  else
    let y := 2 * fixPi * r / 192
    sinSeries (fixMul y y) 40 0 y

/-- Sine of m/192 of a turn, exact at the multiples of a quarter turn. -/
def fixSin (m : Nat) : Int :=
  let r := m % 48
  match m / 48 % 4 with
  | 0 => fixSinTurn r
  | 1 => fixSinTurn (48 - r)
  | 2 => -fixSinTurn r
  | _ => -fixSinTurn (48 - r)

/-- Integer square root by Newton's steps. -/
def sqrtStep (n : Nat) : Nat → Nat → Nat
  | 0, x => x
  | fuel + 1, x =>
    let y := (x + n / x) / 2
    if x ≤ y then x else sqrtStep n fuel y

/-- floor of the square root. -/
def isqrt (n : Nat) : Nat := if n = 0 then 0 else sqrtStep n 2000 (2 ^ (Nat.log2 n / 2 + 1))

/-- A fixed-point number as a dyadic value. -/
def fixVal (x : Int) : Val := .fin (decide (x < 0)) x.natAbs (-(fixB : Int))

/-- num/den × 2^e rounded to FP32 by RNE: enough quotient bits with the rest kept as a sticky bit. -/
def roundRatio (num : Int) (den : Nat) (e : Int) : Nat :=
  let n := num.natAbs * 2 ^ 200
  let sticky := if n % den = 0 then 0 else 1
  toF32 (.fin (decide (num < 0)) (2 * (n / den) + sticky) (e - 201))

/-- The functions of VTR (R189). -/
inductive Tfn where
  | exp2 | log2 | recip | rsqrt | tanh | sigmoid | sine | cosine
deriving DecidableEq, Repr

/-- F_j at the interpolation point number m = 3j + k, rounded to FP32 by RNE (y_k of R191). -/
def tfnPoint (f : Tfn) (m : Nat) : Nat :=
  match f with
  | .exp2 => toF32 (fixVal (fixExp (fixLn 2 1 * m / 192)))
  | .log2 => if m = 192 then 0x3F800000 else toF32 (fixVal (fixLn (192 + m) 192 * fixOne / fixLn 2 1))
  | .recip => roundRatio 192 (192 + m) 0
  | .rsqrt => toF32 (.fin false (isqrt (64 * 2 ^ (2 * fixB) / (64 + m))) (-(fixB : Int)))
  | .tanh | .sigmoid =>
    let w := fixExp (2 * fixOne * m / 24)
    toF32 (fixVal ((w - fixOne) * fixOne / (w + fixOne)))
  | .sine => toF32 (fixVal (fixSin m))
  | .cosine => toF32 (fixVal (fixSin (m + 48)))

/-- The reciprocal of a third of the segment width, 3/h of R191. -/
def tfnNodes : Tfn → Nat
  | .rsqrt => 64
  | .tanh | .sigmoid => 24
  | _ => 192

/-- The four coefficients c0 to c3 of segment j (R191): the interpolating polynomial through the four points by its
divided differences, each coefficient an exact rational over 6 rounded once. -/
def tfnCoeffs (f : Tfn) (j : Nat) : List Nat :=
  let y := fun k => vScaled (ofF32 (tfnPoint f (3 * j + k))) (-160)
  let d1 := y 1 - y 0
  let d2 := y 2 - 2 * y 1 + y 0
  let d3 := y 3 - 3 * y 2 + 3 * y 1 - y 0
  let n : Int := tfnNodes f
  [roundRatio (y 0) 1 (-160), roundRatio ((6 * d1 - 3 * d2 + 2 * d3) * n) 6 (-160),
   roundRatio ((3 * d2 - 3 * d3) * n * n) 6 (-160), roundRatio (d3 * n * n * n) 6 (-160)]

/-- The polynomial of R191 in its evaluation order. -/
def tfnPoly (f : Tfn) (j : Nat) (t : Val) : Nat :=
  match tfnCoeffs f j with
  | [c0, c1, c2, c3] =>
    let fm := fun p c => toF32 (vadd (vmul (ofF32 p) t) (ofF32 c))
    fm (fm (fm c3 c2) c1) c0
  | _ => 0

/-- floor of a dyadic magnitude man × 2^e. -/
def floorMag (man : Nat) (e : Int) : Nat := shiftBy man e

/-- tanh of a value by the reduction of R190 and the cases of R192. -/
def tanhCode (v : Val) : Nat :=
  match v with
  | .nan => 0x7FC00000
  | .inf n => toF32 (.fin n 1 0)
  | .fin n m e =>
    if m = 0 then signBit .fp32 n
    else if vlt (.fin false m e) (.fin false 8 0) then
      let j := floorMag m (e + 3)
      let t := vadd (.fin false m e) (.fin true j (-3))
      let p := tfnPoly .tanh j t
      if n then p + 2 ^ 31 else p
    else toF32 (.fin n 1 0)

/-- The normalised mantissa of a nonzero magnitude as (m − 1) at scale 2^-k and its exponent: x = (1 + r/2^k) × 2^e. -/
def normal (man : Nat) (e : Int) : Nat × Nat × Int :=
  let k := Nat.log2 man
  (man - 2 ^ k, k, e + k)

/-- Sine or cosine of a value (R190): u is the product with 0x3E22_F983 rounded by RNE, f its fraction. -/
def turnCode (f : Tfn) (v : Val) : Nat :=
  match ofF32 (toF32 (vmul v (ofF32 0x3E22F983))) with
  | .fin n m e =>
    let sc := (if e < 0 then e else 0)
    let u : Int := vScaled (.fin n m e) sc
    let one : Int := (2 ^ (-sc).toNat : Nat)
    let fr := (u % one).toNat
    let j := fr * 64 / one.toNat
    let t := Val.fin false (64 * fr - j * one.toNat) (sc - 6)
    tfnPoly f j t
  | _ => 0x7FC00000

/-- One lane of VTR (R190 to R192) as an FP32 code. -/
def tfnLane (f : Tfn) (x : Nat) : Nat :=
  match ofF32 x with
  | .nan => 0x7FC00000
  | .inf n =>
    match f with
    | .exp2 => if n then 0 else 0x7F800000
    | .log2 => if n then 0x7FC00000 else 0x7F800000
    | .recip => signBit .fp32 n
    | .rsqrt => if n then 0x7FC00000 else 0
    | .tanh => tanhCode (.inf n)
    | .sigmoid => ffma (tanhCode (.inf n)) 0x3F000000 0x3F000000
    | .sine | .cosine => 0x7FC00000
  | .fin n m e =>
    match f with
    | .exp2 =>
      if vlt (.fin n m e) (.fin false 128 0) then
        if vlt (.fin n m e) (.fin true 150 0) then 0
        else
          let sc := (if e < 0 then e else 0)
          let u : Int := vScaled (.fin n m e) sc
          let one : Int := (2 ^ (-sc).toNat : Nat)
          let fl := u / one
          let fr := (u % one).toNat
          let j := fr * 64 / one.toNat
          let p := tfnPoly .exp2 j (.fin false (64 * fr - j * one.toNat) (sc - 6))
          toF32 (vTimes2 (ofF32 p) fl)
      else 0x7F800000
    | .log2 =>
      if m = 0 then 0xFF800000
      else if n then 0x7FC00000
      else
        let (r, k, ex) := normal m e
        let j := r * 64 / 2 ^ k
        let p := tfnPoly .log2 j (.fin false (64 * r - j * 2 ^ k) (-(k : Int) - 6))
        toF32 (vadd (valOfInt ex) (ofF32 p))
    | .recip =>
      if m = 0 then signBit .fp32 n + 0x7F800000
      else
        let (r, k, ex) := normal m e
        let j := r * 64 / 2 ^ k
        let p := tfnPoly .recip j (.fin false (64 * r - j * 2 ^ k) (-(k : Int) - 6))
        let y := toF32 (vTimes2 (ofF32 p) (-ex))
        if n then y + 2 ^ 31 else y
    | .rsqrt =>
      if m = 0 then signBit .fp32 n + 0x7F800000
      else if n then 0x7FC00000
      else
        let (r0, k, ex0) := normal m e
        let odd := ex0 % 2 == 1
        let ex := if odd then ex0 - 1 else ex0
        let r := if odd then 2 ^ k + 2 * r0 else r0
        let j := r * 64 / (3 * 2 ^ k)
        let p := tfnPoly .rsqrt j (.fin false (64 * r - 3 * j * 2 ^ k) (-(k : Int) - 6))
        toF32 (vTimes2 (ofF32 p) (-(ex / 2)))
    | .tanh => tanhCode (.fin n m e)
    | .sigmoid =>
      ffma (tanhCode (ofF32 (toF32 (vTimes2 (.fin n m e) (-1))))) 0x3F000000 0x3F000000
    | .sine | .cosine => turnCode f (.fin n m e)

/-- Is the exact value of the function at x zero: what the flush census of R216 asks. -/
def tfnExactZero (f : Tfn) (x : Nat) : Bool :=
  match f, ofF32 x with
  | .exp2, .inf n => n
  | .log2, v => veq v (.fin false 1 0)
  | .recip, .inf _ => true
  | .rsqrt, .inf n => !n
  | .tanh, v => vIsZero v
  | .sigmoid, .inf n => n
  | .sine, v => vIsZero v
  | _, _ => false

/-- The function of an FN code (R189). -/
def tfnOf (c : Nat) : Tfn :=
  match c % 8 with
  | 0 => .exp2 | 1 => .log2 | 2 => .recip | 3 => .rsqrt | 4 => .tanh | 5 => .sigmoid | 6 => .sine | _ => .cosine

end Sys2Proof.Machine
end

