-- ==== Sys2Proof/Machine/TilePipe.lean ====
section
/-! DEFINITION. One ACLK cycle of a tile (02_tile.md): what every issued repeat does in that cycle, arbitration of the
scratch banks (R48), the matrix array (R56 to R58, R102 to R107), the vector unit (R59, R183 to R198), accumulator ports
(R52) and the address generators. -/

namespace Sys2Proof.Machine

/-- The key of entry e of a bank. -/
def accKey (bank e : Nat) : Nat := bank * 12288 + e

def Tile_entry (ti : Tile) (bank e : Nat) : Entry := tgetD ti.acc (accKey bank e) {}

/-- Set an entry; a cleared entry is not listed. -/
def Tile_setEntry (ti : Tile) (bank e : Nat) (v : Entry) : Tile := { ti with acc := tput ti.acc (accKey bank e) {} v }

/-- The scratch requests of the items due in a cycle: priority of R48 and row. -/
def flightReqs (rps : List Rep) (f : Flight) : List (Nat × Nat) :=
  let pr := fun p (l : List Seg) => l.map (fun g => (p, g.row))
  match f.op with
  | .rdB => pr 2 f.segs ++ pr 4 f.segs2
  | .rdA => pr 1 f.segs ++ pr 3 f.segs2
  | .rdV =>
    match rps.find? (fun r => r.s == f.s) with
    | some r => pr 1 f.segs ++ pr (if cwOPCODE r.w = opVCVT then 3 else 2) f.segs2
    | none => pr 1 f.segs ++ pr 2 f.segs2
  | .wrV =>
    match rps.find? (fun r => r.s == f.s) with
    | some r => pr 0 f.segs ++ pr (if cwOPCODE r.w = opVCVT then 4 else 0) f.segs2
    | none => pr 0 f.segs
  | _ => []

/-- The row that each bank serves: that of its first request of the highest priority. -/
def winnerRow (reqs : List (Nat × Nat)) (bank : Nat) : Option Nat :=
  (reqs.foldl (fun (best : Option (Nat × Nat)) r =>
    if r.2 % 32 = bank then
      match best with
      | none => some r
      | some b => if r.1 < b.1 then some r else best
    else best) none).map Prod.snd

/-- Is a row served in this cycle (R48). -/
def rowServed (reqs : List (Nat × Nat)) (row : Nat) : Bool := winnerRow reqs (row % 32) == some row

/-- The bytes that a segment's read delivers: zeros when it is dropped, zeros beyond its row. -/
def State.segRead (s : State) (t : Nat) (reqs : List (Nat × Nat)) (g : Seg) : List Nat :=
  (if rowServed reqs g.row then mread s.mem (scratchBase t + g.row * 64 + g.off) g.len
   else List.replicate g.len 0) ++ List.replicate g.pad 0

/-- Write a segment's bytes when its row is served. -/
def segWrite (s : State) (t : Nat) (reqs : List (Nat × Nat)) (g : Seg) (bytes : List Nat) : State :=
  if rowServed reqs g.row then { s with mem := mwrite s.mem (scratchBase t + g.row * 64 + g.off) (bytes.take g.len) }
  else s

/-- Add an item in flight. -/
def addFlight (s : State) (t : Nat) (f : Flight) : State :=
  let ti := s.tile t
  s.setT t { ti with flight := ti.flight ++ [f] }

/-- Count census events for a command (R67). -/
def addCensus (s : State) (t num : Nat) (c : Census) : State :=
  let ti := s.tile t
  s.setT t { ti with cen := tset ti.cen num (cenAdd (tgetD ti.cen num {}) c) }

/-- The seed of the tile's partition (R114). -/
def State.seedOf (s : State) (t : Nat) : Nat :=
  match s.packPart (packOf t) with
  | some k => s.rd (shapePBase k) SHAPE_SEED.SEED
  | none => 0

def alignHit (s : State) (t n : Nat) (hit : Bool) : State :=
  if hit then raiseTile s t TILE_STAT.ALIGN TILE_CTRL.ALIGN_EVT .tileAlign n else s

/-! Emission: the addresses that the AGs form in cycle c (R56, R59). -/

/-- AG1 emits two beats of the B block, and the scale bytes of the columns whose records begin in them (R43). -/
def emitB (s : State) (t c : Nat) (rp : Rep) : State :=
  let k := c - (rp.s + 2)
  let base := s.repBase t 1 rp
  let a0 := (base + 128 * k) % 2 ^ 22
  let a1 := (base + 128 * k + 64) % 2 ^ 22
  let r := recBytes (matFB rp.w)
  let cols := (List.range 96).filter (fun n => n * r / 128 == k)
  let scaled := mmaSCB rp.w == 1 && !(cols.isEmpty)
  let sa := (s.agScale t 1 rp (fmtWidth (matFB rp.w)) 0 + cols.headD 0) % 2 ^ 22
  let sg := mkScaleSeg sa cols.length
  let s := alignHit s t 1 (segBreaks a0 64 || segBreaks a1 64 || (scaled && sg.pad != 0))
  addFlight s t { due := c + 1, s := rp.s, g := k, op := .rdB, segs := [mkSeg a0 64, mkSeg a1 64],
                  segs2 := if scaled then [sg] else [], data := [cols] }

/-- AG0 emits the segments of row group g and the addresses of their scale bytes. A group that R58 keeps from entering the array
makes its requests all the same, and so does an abandoned vector of R59: the manual takes only their results away (DEDUCED,
log 133). -/
def emitA (s : State) (t c : Nat) (rp : Rep) : State :=
  let g := c - (rp.s + 2 + matLB rp.w)
  let rows := (List.range (rowsPerGroup rp.w)).map (fun j => rowsPerGroup rp.w * g + j)
  let len := recBytes (matFA rp.w)
  let addrs := rows.map (fun i => s.agAddr t 0 rp i)
  let scs := if mmaSCA rp.w = 1 then
      rows.map (fun i => mkScaleSeg (s.agScale t 0 rp (fmtWidth (matFA rp.w)) i) 1) else []
  let s := alignHit s t 0 (addrs.any (fun a => segBreaks a len))
  addFlight s t { due := c + 1, s := rp.s, g := g, op := .rdA, segs := addrs.map (fun a => mkSeg a len), segs2 := scs }

/-- Scratch format of operand a and of operand b of a vector command. -/
def vecFA (w : Nat) : Fmt :=
  let c := if cwOPCODE w = opVOP then vopFA w else if cwOPCODE w = opVTR then vtrFA w
    else if cwOPCODE w = opVCVT then vcvtFS w else 0xB
  (fmtOf c).getD .fp32
def vecFB (w : Nat) : Fmt := (fmtOf (if cwOPCODE w = opVOP then vopFB w else vresFX w)).getD .fp32

/-- The operand addresses of vector j (R59, R183, R195). -/
def emitV (s : State) (t c : Nat) (rp : Rep) : State :=
  let j := c - (rp.s + 2)
  let used := agsUsed rp.w
  let a := s.agAddr t 0 rp j
  let b := s.agAddr t 1 rp j
  let segA := if used.contains 0 then mkVec a (16 * fmtWidth (vecFA rp.w)) else []
  let scale := cwOPCODE rp.w == opVCVT && vcvtSCS rp.w == 1
  let sg := mkScaleSeg (s.agScale t 0 rp (fmtWidth (vecFA rp.w)) j) 4
  let segB := if scale then [sg] else if used.contains 1 then mkVec b (16 * fmtWidth (vecFB rp.w)) else []
  let s := alignHit s t 0 (used.contains 0 && a % 64 != 0)
  let s := alignHit s t 0 (scale && sg.pad != 0)
  let s := alignHit s t 1 (!scale && used.contains 1 && b % 64 != 0)
  addFlight s t { due := c + 1, s := rp.s, g := j, op := .rdV, segs := segA, segs2 := segB }

/-- What a repeat emits in cycle c. Where two repeats of commands that share an AG overlap, both emit in one cycle, each from
its own indices or FIFO base and from the registers as they stand, the earlier one first in arbitration: R54 gives the registers
and not the order (DESIGN CHOICE, log 119). -/
def emitRep (s : State) (t c : Nat) (rp : Rep) : State :=
  if isMatrix rp.w then
    let lb := matLB rp.w
    let s := if rp.s + 2 ≤ c ∧ c ≤ rp.s + 1 + lb then emitB s t c rp else s
    if rp.s + 2 + lb ≤ c ∧ c < rp.s + 2 + lb + matGroups rp.w then emitA s t c rp else s
  else if isVector rp.w then
    if rp.s + 2 ≤ c ∧ c < rp.s + 2 + vecV rp.w then emitV s t c rp else s
  else s

/-! The matrix array. -/

/-- Element values of a row segment or column record (R81, R82). -/
def elems (f : Fmt) (bytes : List Nat) : List Val :=
  let run := leNat bytes
  (List.range (blockElems f)).map (fun k => operandVal f (elemAt run (fmtWidth f) k))

/-- A beat pair of B enters the weight shadow: every element whose last bit it delivers, and scales (R56, R58). A
six-bit element that straddles two beat pairs takes its low bits from the pair before, which `bPart` keeps. The entries are
decoded elements by column and place in the record, so that a block of another format (16 or 32 elements, float or integer)
replaces the entries with its own columns and places: R58 does not say which it replaces (DESIGN CHOICE, log 119). -/
def shadowWrite (s : State) (t : Nat) (rp : Rep) (f : Flight) : State :=
  let ti := s.tile t
  let fb := matFB rp.w
  let w := fmtWidth fb
  let nb := blockElems fb
  let run := tgetD ti.bPart rp.s 0 + 2 ^ 1024 * leNat (f.data.getD 0 [])
  let lo := 1024 * f.g
  let k0 := lo / w
  let upd := (List.range ((lo + 1024) / w - k0)).map (fun i =>
    let k := k0 + i
    (k / nb * 32 + k % nb, operandVal fb (run / 2 ^ (w * k + 1024 - lo) % 2 ^ w)))
  let scs := (f.data.getD 1 []).zip (f.data.getD 2 [])
  s.setT t { ti with
    bPart := if f.g + 1 = matLB rp.w then tdel ti.bPart rp.s else tset ti.bPart rp.s (run / 2 ^ 1024)
    wsh := upd.foldl (fun m kv => tset m kv.1 kv.2) ti.wsh
    wshScale := scs.foldl (fun m kv => tset m kv.1 kv.2) ti.wshScale }

/-- The active weights of a column. -/
def colWeights (ti : Tile) (nb n : Nat) : List Val :=
  (List.range nb).map (fun i => tgetD ti.act (n * 32 + i) (.fin false 0 0))

/-- A row group enters the array: its block sums are formed from the active weights and travel to the accumulators
(R56, R102). Float block sums carry their events above bit 32: bit 32 NaN seen, bit 33 overflow. A group of a pass after
which another has begun does not enter (R58). A command with CLR writes the bank's replay exponent when row group 0 of its first
repeat enters: R120 gives no cycle (DESIGN CHOICE, log 120). -/
def enterArray (s : State) (t c : Nat) (rp : Rep) (f : Flight) : State :=
  let s := if f.g = 0 ∧ rp.first ∧ mmaCLR rp.w = 1 then
      s.wr (accBase t) (ACC_BEXP.D (mmaBANK rp.w)) (if isIntPath rp.w then 0 else rp.d) else s
  let ti := s.tile t
  if ti.pass ≠ rp.s then s
  else
    let fa := matFA rp.w
    let nb := blockElems fa
    let rows := f.data.dropLast.map (fun bs => elems fa bs)
    let scs := f.data.getLastD []
    let cols := (List.range 96).map (fun n => (colWeights ti nb n, tgetD ti.actScale n 0x7F))
    if isIntPath rp.w then
      let sums := rows.map (fun a => cols.map (fun wc => toBits 64 (intSum a wc.1)))
      addFlight s t { due := c + 16, s := rp.s, g := f.g, op := .intTotal, data := sums }
    else
      let d := if mmaCLR rp.w = 1 then rp.d else s.rd (accBase t) (ACC_BEXP.D (mmaBANK rp.w))
      let res := (rows.zip (scs ++ List.replicate rows.length 0x7F)).map (fun ra =>
        cols.map (fun wc => blockSum ra.1 wc.1 ra.2 (if mmaSCB rp.w = 1 then wc.2 else 0x7F) d))
      let s := addCensus s t rp.num (cenSum (res.map (fun l => cenSum (l.map Prod.snd))))
      addFlight s t { due := c + 12, s := rp.s, g := f.g, op := .chunk,
                      data := res.map (fun l => l.map (fun x => x.1 + 2 ^ 32 * (x.2.nan + 2 * x.2.inf))) }

/-- One entry's chunk write (R106): the entry, the closed value with its ordinal if the chunk closes, the census, and
the flags that it sets. -/
def chunkEntry (w : Nat) (clr close_ : Bool) (e : Entry) (x : Nat) : Entry × Option (Nat × Nat) × Census × Nat :=
  let e := if clr then { total := e.total } else e
  let (v, cen) := accAdd .rne e.chunk.toNat (x % 2 ^ 32)
  let fl := Nat.lor (x / 2 ^ 32) (cen.nan + 2 * cen.inf)
  let e := { e with flags := e.flags ||| BitVec.ofNat 4 fl }
  if matC w ≤ e.pos.toNat + 1 || close_ then
    ({ e with chunk := 0, pos := 0, ord := e.ord + 1 }, some (v, e.ord.toNat), cen, fl)
  else ({ e with chunk := BitVec.ofNat 32 v, pos := e.pos + 1 }, none, cen, fl)

/-- Set the bank flags of R72 from entry flags. -/
def bankFlags (s : State) (t bank fl : Nat) : State :=
  let b := accBase t
  let s := if fl % 2 = 1 then s.wr b (ACC_FLAGS.NAN bank) 1 else s
  let s := if fl / 2 % 2 = 1 then s.wr b (ACC_FLAGS.OVF bank) 1 else s
  if fl / 4 % 2 = 1 then s.wr b (ACC_FLAGS.SAT bank) 1 else s

/-- The chunk writes of a row group (R56, R106). -/
def chunkWrite (s : State) (t c : Nat) (rp : Rep) (f : Flight) : State :=
  let bank := mmaBANK rp.w
  let R := rowsPerGroup rp.w
  let clr := rp.first && mmaCLR rp.w == 1
  let fin := rp.last && mmaFC rp.w == 1
  let items := (f.data.zipIdx).foldr (fun rowi acc =>
    (rowi.1.zipIdx).map (fun xn => (96 * (R * f.g + rowi.2) + xn.2, xn.1)) ++ acc) []
  let ti := s.tile t
  let (ti, closed, cen, fl) := items.foldl
    (fun (st : Tile × List (Nat × Nat × Nat) × Census × Nat) it =>
      let (e, cl, cn, fl) := chunkEntry rp.w clr fin (Tile_entry st.1 bank it.1) it.2
      (Tile_setEntry st.1 bank it.1 e,
       (match cl with
        | some (v, o) => st.2.1 ++ [(it.1, v, o)]
        | none => st.2.1),
       cenAdd st.2.2.1 cn, Nat.lor st.2.2.2 fl)) (ti, [], {}, 0)
  let s := bankFlags (addCensus (s.setT t ti) t rp.num cen) t bank fl
  addFlight s t { due := c + 4, s := rp.s, g := f.g, op := .total,
                  data := [closed.map (fun x => x.1), closed.map (fun x => x.2.1), closed.map (fun x => x.2.2)] }

/-- The total writes of a row group (R106, R107, R111 to R113). What CLR clears is cleared where the first repeat writes: chunk,
position, ordinal and flags with the chunk write, the total with the total write. R107 says only that the clear is made at the
first block (DESIGN CHOICE, log 120). -/
def totalWrite (s : State) (t : Nat) (rp : Rep) (f : Flight) : State :=
  let bank := mmaBANK rp.w
  let R := rowsPerGroup rp.w
  let clr := rp.first && mmaCLR rp.w == 1
  let seed := s.seedOf t
  let S := srbOf (mmaSRB rp.w)
  let ti := s.tile t
  let ti := if clr then
      (List.range (96 * R)).foldl (fun ti i =>
        let e := 96 * R * f.g + i
        Tile_setEntry ti bank e { Tile_entry ti bank e with total := 0 }) ti
    else ti
  let closes := (f.data.getD 0 []).zip ((f.data.getD 1 []).zip (f.data.getD 2 []))
  let (ti, cen, fl) := closes.foldl (fun (st : Tile × Census × Nat) x =>
    let e := Tile_entry st.1 bank x.1
    let mode := if mmaTRM rp.w = 1 then srMode S (gen seed x.1 (mmaSTREAM rp.w) x.2.2 0) else .rne
    let (v, cn) := accAdd mode e.total.toNat x.2.1
    let e := { e with total := BitVec.ofNat 32 v, flags := e.flags ||| BitVec.ofNat 4 (cn.nan + 2 * cn.inf) }
    (Tile_setEntry st.1 bank x.1 e, cenAdd st.2.1 cn, Nat.lor st.2.2 (cn.nan + 2 * cn.inf))) (ti, {}, 0)
  bankFlags (addCensus (s.setT t ti) t rp.num cen) t bank fl

/-- The total writes of a row group on the integer path (R44, R107, R180). -/
def intTotalWrite (s : State) (t : Nat) (rp : Rep) (f : Flight) : State :=
  let bank := mmaBANK rp.w
  let R := rowsPerGroup rp.w
  let clr := rp.first && mmaCLR rp.w == 1
  let items := (f.data.zipIdx).foldr (fun rowi acc =>
    (rowi.1.zipIdx).map (fun xn => (96 * (R * f.g + rowi.2) + xn.2, xn.1)) ++ acc) []
  let (ti, cen, fl) := items.foldl (fun (st : Tile × Census × Nat) it =>
    let e0 := Tile_entry st.1 bank it.1
    let e := if clr then {} else e0
    let (v, cn) := intAdd e.total.toNat (sext 64 it.2)
    let e := { e with total := BitVec.ofNat 32 v, flags := e.flags ||| BitVec.ofNat 4 (4 * cn.sat) }
    (Tile_setEntry st.1 bank it.1 e, cenAdd st.2.1 cn, Nat.lor st.2.2 (4 * cn.sat))) (s.tile t, {}, 0)
  bankFlags (addCensus (s.setT t ti) t rp.num cen) t bank fl

/-! The vector unit. -/

/-- FP32 codes of a vector of operand elements (R81, R186). -/
def vecCodes (f : Fmt) (bytes : List Nat) : List Nat :=
  let run := leNat bytes
  (List.range 128).map (fun k =>
    let c := elemAt run (fmtWidth f) k
    if f = .fp32 then c else toF32 (decodeFmt f c))

/-- The raw codes of a vector. -/
def rawCodes (f : Fmt) (bytes : List Nat) : List Nat :=
  let run := leNat bytes
  (List.range 128).map (fun k => elemAt run (fmtWidth f) k)

/-- Vector j of a bank: totals, or the flag plane as FP32 integers (R184). -/
def bankVec (ti : Tile) (bank j : Nat) (flagPlane : Bool) : List Nat :=
  (List.range 128).map (fun l =>
    let e := Tile_entry ti bank (128 * j + l)
    if flagPlane then toF32 (valOfInt e.flags.toNat) else e.total.toNat)

/-- The operands a, b and c of vector j read in this cycle, as codes (R184, R186, R189, R193, R197). -/
def vecOperands (s : State) (t : Nat) (reqs : List (Nat × Nat)) (rp : Rep) (f : Flight) : List (List Nat) :=
  let ti := s.tile t
  let op := cwOPCODE rp.w
  let scratchA := fun (_ : Unit) => f.segs.foldr (fun g r => s.segRead t reqs g ++ r) []
  let scratchB := fun (_ : Unit) => f.segs2.foldr (fun g r => s.segRead t reqs g ++ r) []
  if op = opVOP then
    let a := match vopSRCA rp.w with
      | 0 => vecCodes (vecFA rp.w) (scratchA ())
      | 1 => bankVec ti (vopBNKA rp.w) f.g false
      | _ => bankVec ti (vopBNKA rp.w) f.g true
    let b := match vopSRCB rp.w with
      | 0 => if vopUsesB (vopOP rp.w) then vecCodes (vecFB rp.w) (scratchB ()) else []
      | 1 => bankVec ti (vopBNKB rp.w) f.g false
      | _ => List.replicate 128 (vopIMM rp.w)
    let c := if vopCIMM rp.w = 1 then List.replicate 128 (vopIMMC rp.w)
      else if vopUsesC (vopOP rp.w) then bankVec ti (vopBNKC rp.w) f.g false else []
    [a, b, c]
  else if op = opVTR then
    [if vtrSRCA rp.w = 0 then vecCodes (vecFA rp.w) (scratchA ()) else bankVec ti (vtrBNKA rp.w) f.g false]
  else if op = opVCVT then
    [(match vcvtSRCA rp.w with
      | 0 => rawCodes (vecFA rp.w) (scratchA ())
      | 1 => bankVec ti (vcvtBNKA rp.w) f.g false
      | _ => bankVec ti (vcvtBNKA rp.w) f.g true),
     if vcvtSCS rp.w = 1 then scratchB () else []]
  else
    [vecCodes .fp32 (scratchA ()),
     if vresXBANK rp.w = 1 then bankVec ti (vresBNKX rp.w) f.g false else vecCodes (vecFB rp.w) (scratchB ())]

/-- The stochastic or nearest rounding of lane l of vector j of a repeat (R91, R113). -/
def laneMode (rm s seed stream n l : Nat) : Rnd :=
  if rm = 1 then srMode s (gen seed l stream n 1) else .rne

/-- Results of a VOP vector and their census. -/
def vopResult (w : Nat) (ops : List (List Nat)) : List Nat × Census :=
  let a := ops.getD 0 []
  let b := ops.getD 1 []
  let c := ops.getD 2 []
  let op := vopOP w
  let out := vopLanes op (vopLSEL w) a b c
  let cen := (List.range 128).map (fun l =>
    let al := match op with
      | 0x18 => [a.getD (Nat.xor l (vopLSEL w)) 0]
      | 0x19 => [a.getD (vopLSEL w) 0]
      | 0x1C => a
      | _ => [a.getD l 0]
    let bl := if vopUsesB op then [b.getD l 0] else []
    let cl := if vopUsesC op then [c.getD l 0] else []
    cenF32 (al ++ bl ++ cl) (vopExactNonzero op a (a.getD l 0) (b.getD l 0) (c.getD l 0)) (out.getD l 0))
  (out, cenSum cen)

/-- Results of a VTR vector and their census. -/
def vtrResult (w : Nat) (a : List Nat) : List Nat × Census :=
  let fn := tfnOf (vtrFN w)
  let out := a.map (tfnLane fn)
  (out, cenSum ((a.zip out).map (fun x => cenF32 [x.1] (!(tfnExactZero fn x.1)) x.2)))

/-- Results of a VCVT vector: target codes, scale bytes and census (R193 to R196). The largest exponent of a widening with block
scales is taken over the scaled values v·2^(c−127): R99 says only 'its finite nonzero inputs' (DESIGN CHOICE, log 121). -/
def vcvtResult (w d seed r j : Nat) (a scales : List Nat) : List Nat × List Nat × Census :=
  let fs := (fmtOf (vcvtFS w)).getD .fp32
  let fd := (fmtOf (vcvtFD w)).getD .fp32
  let om := vcvtOM w == 1
  let mode := laneMode (vcvtRM w) (srbOf (vcvtSRB w)) seed (vcvtSTREAM w) (r * vecV w + j)
  if narrow5.contains fs || fs == .int8 then
    let res := (List.range 128).map (fun l =>
      let sc := scales.getD (l / 32) 0x7F
      let v := if vcvtSCS w = 1 then vTimes2 (decodeFmt fs (a.getD l 0)) (scaleExp sc) else decodeFmt fs (a.getD l 0)
      (widen fs (vcvtSCS w == 1) sc (a.getD l 0), if vcvtSCS w = 1 ∧ sc = 0xFF then none else expOf v))
    (res.map (fun x => x.1.code), [],
     cenAdd (cenSum (res.map (fun x => cenOfConv x.1))) { maxe := res.foldl (fun m x => maxExp m x.2) none })
  else
    let vals := a.map (fun c => decodeFmt fs c)
    let maxe : Census := { maxe := maxExpOf vals }
    if vcvtSCD w = 1 then
      let blocks := (List.range 4).map (fun k =>
        convertBlock fd om d (((vals.zipIdx).drop (32 * k)).take 32 |>.map (fun x => (x.1, mode x.2))))
      (blocks.foldr (fun b r => b.2.map (·.code) ++ r) [], blocks.map Prod.fst,
       cenAdd (cenSum (blocks.map (fun b => cenSum (b.2.map cenOfConv)))) maxe)
    else if fs = fd then
      (a, [], cenAdd (cenSum (vals.map (fun v =>
        { nan := if vIsNaN v then 1 else 0, inf := if vIsInf v then 1 else 0 }))) maxe)
    else
      let res := (vals.zipIdx).map (fun x => convert fd om (mode x.2) x.1)
      let widening := fd == .fp32 && halves.contains fs
      (res.map (·.code), [],
       cenAdd (if widening then {} else cenSum (res.map cenOfConv)) maxe)

/-- Results of a VRES vector: FP32 codes, narrow codes and census (R197, R215). -/
def vresResult (w seed r j : Nat) (a x : List Nat) : List Nat × List Nat × Census :=
  let out := (a.zip x).map (fun p => fadd p.1 p.2)
  let fd := (fmtOf (vresFD w)).getD .bf16
  let mode := laneMode (vresRM w) (srbOf (vresSRB w)) seed (vresSTREAM w) (r * vecV w + j)
  let nar := (out.zipIdx).map (fun y => convert fd (vresOM w == 1) (mode y.2) (ofF32 y.1))
  (out, nar.map (·.code),
   cenAdd (cenSum (((a.zip x).zip out).map (fun p => cenF32 [p.1.1, p.1.2] false p.2)))
     (cenAdd (cenSum (nar.map cenOfConv)) { maxe := maxExpOf (out.map ofF32) }))

/-- The operands of a vector reach the lanes (R59): the result travels to its write cycle, unless a later repeat has
taken the VU. Its events are counted here, whether or not its write is dropped later (R48, R52): R67 does not say (DESIGN
CHOICE, log 121). A convert samples the bank's replay exponent here, vector by vector: R121 gives no cycle (DESIGN CHOICE,
log 120). -/
def vecLanes (s : State) (t : Nat) (rp : Rep) (f : Flight) : State :=
  if (s.tile t).vu ≠ rp.s then s
  else
    let op := cwOPCODE rp.w
    let seed := s.seedOf t
    let (data, cen) : List (List Nat) × Census :=
      if op = opVOP then let r := vopResult rp.w f.data; ([r.1], r.2)
      else if op = opVTR then let r := vtrResult rp.w (f.data.getD 0 []); ([r.1], r.2)
      else if op = opVCVT then
        let d := if vcvtSRCA rp.w = 1 then s.rd (accBase t) (ACC_BEXP.D (vcvtBNKA rp.w)) else 0
        let r := vcvtResult rp.w d seed rp.r f.g (f.data.getD 0 []) (f.data.getD 1 [])
        ([r.1, r.2.1], r.2.2)
      else
        let r := vresResult rp.w seed rp.r f.g (f.data.getD 0 []) (f.data.getD 1 [])
        ([r.1, r.2.1], r.2.2)
    let s := addCensus s t rp.num cen
    addFlight s t { due := rp.s + 5 + vecL rp.w + f.g, s := rp.s, g := f.g, op := .emitV, data := data }

/-- The bank that a vector command writes, if it writes one. -/
def vecDstBank (w : Nat) : Option Nat :=
  if cwOPCODE w = opVOP then (if vopDST w = 1 then some (vopBNKD w) else none)
  else if cwOPCODE w = opVTR then (if vtrDST w = 1 then some (vtrBNKD w) else none)
  else if cwOPCODE w = opVCVT then (if vcvtDST w = 1 then some (vcvtBNKD w) else none)
  else none

/-- AG2 forms the write addresses of vector j in the cycle before the write (R59; the cycle is DEDUCED from the one-cycle
distance of every other address from its access). -/
def vecEmitWrite (s : State) (t c : Nat) (rp : Rep) (f : Flight) : State :=
  let wr : Flight := { due := c + 1, s := rp.s, g := f.g, op := .wrV }
  match vecDstBank rp.w with
  | some _ => addFlight s t { wr with data := f.data }
  | none =>
    let op := cwOPCODE rp.w
    let fd := if op = opVCVT then (fmtOf (vcvtFD rp.w)).getD .fp32 else .fp32
    let a := s.agAddr t 2 rp f.g
    let bytes := leBytes (16 * fmtWidth fd) (packRun (fmtWidth fd) (f.data.getD 0 []))
    let s := alignHit s t 2 (a % 64 != 0)
    if op = opVRES then
      let fn := (fmtOf (vresFD rp.w)).getD .bf16
      let a2 := wrap22 (a + sext 22 (vresNOFF rp.w))
      let nb := leBytes (16 * fmtWidth fn) (packRun (fmtWidth fn) (f.data.getD 1 []))
      addFlight s t { wr with segs := mkVec a bytes.length, segs2 := mkVec a2 nb.length, data := [bytes, nb] }
    else if op = opVCVT ∧ vcvtSCD rp.w = 1 then
      let sg := mkScaleSeg (s.agScale t 2 rp (fmtWidth fd) f.g) 4
      let s := alignHit s t 2 (sg.pad != 0)
      addFlight s t { wr with segs := mkVec a bytes.length, segs2 := [sg], data := [bytes, f.data.getD 1 []] }
    else addFlight s t { wr with segs := mkVec a bytes.length, data := [bytes] }

/-- Write consecutive bytes to the rows of a vector. -/
def vecRowsWrite (s : State) (t : Nat) (reqs : List (Nat × Nat)) : List Seg → List Nat → State
  | [], _ => s
  | g :: r, bytes => vecRowsWrite (segWrite s t reqs g bytes) t reqs r (bytes.drop g.len)

/-- Is entry e of a bank written by the array port in this cycle (R52). -/
def arrayWrites (ti : Tile) (due : List Flight) (bank e : Nat) : Bool :=
  due.any (fun f =>
    match ti.reps.find? (fun r => r.s == f.s) with
    | some r =>
      let lo := 96 * rowsPerGroup r.w * f.g
      let clr := r.first && mmaCLR r.w == 1
      isMatrix r.w && mmaBANK r.w == bank && decide (lo ≤ e) && decide (e < lo + 96 * rowsPerGroup r.w) &&
        (match f.op with
         | .chunk | .intTotal => true
         | .total => clr || (f.data.getD 0 []).contains e
         | _ => false)
    | none => false)

/-- The write of a vector's result: to scratch through AG2, or to a bank through its write port (R52, R59, R185). Of two
results that reach one write port in one ACLK both are written, that of the later flight over that of the earlier (DESIGN
CHOICE, log 143). The two writes of a VRES that overlap in one row are both served, the narrow bytes over the others (R198;
DESIGN CHOICE, log 153). -/
def vecWrite (s : State) (t : Nat) (reqs : List (Nat × Nat)) (due : List Flight) (rp : Rep) (f : Flight) : State :=
  match vecDstBank rp.w with
  | none => vecRowsWrite (vecRowsWrite s t reqs f.segs (f.data.getD 0 [])) t reqs f.segs2 (f.data.getD 1 [])
  | some bank =>
    let ti := s.tile t
    let res := ((f.data.getD 0 []).zipIdx).foldl (fun (x : Tile × Bool) v =>
      let e := 128 * f.g + v.2
      if arrayWrites ti due bank e then (x.1, true)
      else (Tile_setEntry x.1 bank e { Tile_entry x.1 bank e with total := BitVec.ofNat 32 v.1 }, x.2)) (ti, false)
    let s := s.setT t res.1
    if res.2 && !(s.bit (accBase t) (ACC_FLAGS.COLLIDE bank)) then
      let s := s.wr (accBase t) (ACC_FLAGS.COLLIDE bank) 1
      if s.bit (tileBase t) TILE_CTRL.COLLIDE_EVT then
        raiseEv s .tileCollide (s.packPart (packOf t)) (s.tileEv t bank)
      else s
    else s

/-! One cycle. -/

/-- The list rows that AGs read in the issue cycle of a repeat (R156): AG and row. The first repeat after a restore reads the
row of its position again, since the record does not hold it (R125, R164). -/
def State.listReads (s : State) (t c : Nat) (rp : Rep) : List (Nat × Nat) :=
  if rp.s = c then
    ((agsUsed rp.w).filter (fun n => (if rp.first then amOf rp.w n else s.agMode t n) == 2)).filterMap (fun n =>
      let p := s.listPos t n
      if rp.first || rp.reload || p % 16 == 0 then
        some (n, ((s.rd (agBase t n) AG_BASE.BASE + 4 * p) % 2 ^ 22) / 64)
      else none)
  else []

/-- What one item due in this cycle does. Reads see `s0`, the state before the cycle's writes. -/
def runFlight (s0 : State) (reqs : List (Nat × Nat)) (due : List Flight) (t c : Nat) (s : State) (f : Flight) : State :=
  match (s0.tile t).reps.find? (fun r => r.s == f.s) with
  | none => s
  | some rp =>
    match f.op with
    | .rdB =>
      let bytes := f.segs.foldr (fun g r => s0.segRead t reqs g ++ r) []
      let scs := f.segs2.foldr (fun g r => s0.segRead t reqs g ++ r) []
      addFlight s t { due := c + 4, s := f.s, g := f.g, op := .wrB,
                      data := [bytes, if f.segs2.isEmpty then [] else f.data.getD 0 [], scs] }
    | .rdA =>
      let rows := f.segs.map (fun g => s0.segRead t reqs g)
      let scs := f.segs2.foldr (fun g r => s0.segRead t reqs g ++ r) []
      addFlight s t { due := c + 4, s := f.s, g := f.g, op := .enterA, data := rows ++ [scs] }
    | .rdV => addFlight s t { due := c + 3, s := f.s, g := f.g, op := .lanes, data := vecOperands s0 t reqs rp f }
    | .lanes => vecLanes s t rp f
    | .emitV => vecEmitWrite s t c rp f
    | .enterA => enterArray s t c rp f
    | .chunk => chunkWrite s t c rp f
    | .total => totalWrite s t rp f
    | .intTotal => intTotalWrite s t rp f
    | .wrB => shadowWrite s t rp f
    | .wrV => vecWrite s t reqs due rp f

/-- An AGLD repeat that issued in the cycle before writes its register (R199, R200). The answer names the program register
written, for R200's precedence. -/
def agldWrite (s : State) (t c : Nat) (rp : Rep) : State × Option (Nat × Nat) :=
  if rp.s + 1 = c ∧ cwOPCODE rp.w = opAGLD then
    let n := agldAGN rp.w
    let b := agBase t n
    let v := agldVALUE rp.w
    let sel := agldSEL rp.w
    if sel = 0 then (s.wr b AG_BASE.BASE v, none)
    else if sel = 1 then (s.wr b AG_SCALE.BASE v, none)
    else if sel = 2 then (s.wr b AG_ROW.STRIDE v, none)
    else if sel ≤ 6 then
      ((s.wr b (AG_LOOP.STRIDE (sel - 3)) v).wr b (AG_LOOP.COUNT (sel - 3)) (v / 2 ^ 32), none)
    else if sel = 7 then (s.setPos t n ((List.range 4).map (fun k => v / 2 ^ (16 * k) % 2 ^ 16)), none)
    else if sel ≤ 15 then (s.wr (apBase t n) (SEQ_APREG.VALUE (sel - 8)) v, some (n, sel - 8))
    else (s.setAg t n { s.agUnit t n with fifo := [] }, none)
  else (s, none)

/-- Dropped requests (R48): counted, and the status bit set with its event. -/
def countDropped (s : State) (t : Nat) (reqs : List (Nat × Nat)) : State :=
  let dropped := reqs.filter (fun r => !(rowServed reqs r.2))
  match dropped with
  | [] => s
  | d :: _ =>
    let s := s.bump (tileBase t) TILE_CONFLICTS.COUNT TILE_CONFLICTS.WRAP dropped.length
    raiseTile s t TILE_STAT.BANK_CONFLICT TILE_CTRL.CONFLICT_EVT .tileConflict (d.2 % 32)

/-- The cycles for which a repeat's record is kept after its issue. -/
def repLife (w : Nat) : Nat :=
  if isMatrix w then 26 + matLB w + matGroups w else if isVector w then 8 + vecL w + vecV w else 3

/-- Scratch as pipeline reads of this cycle see it: without the external writes of this cycle (R49). -/
def State.beforeExt (s : State) (t : Nat) : State :=
  { s with mem := (s.tile t).ext.foldl (fun m x => mwrite m x.1 x.2) s.mem }

/-- The modes of a command's AGs are loaded at its first repeat, for the cycles after its issue (R54, R148). -/
def loadModes (s : State) (t c : Nat) (rp : Rep) : State :=
  if rp.first ∧ rp.s + 1 = c then
    forEach (agsUsed rp.w) s (fun s n => s.wr (agBase t n) AG_CTRL.MODE (amOf rp.w n))
  else s

/-- The passes and vector streams that begin in cycle c (R56, R58, R59): the weight shadow becomes active, and the groups and
vectors of earlier ones are abandoned for good. -/
def beginStreams (ti : Tile) (c : Nat) : Tile :=
  let ti := match (ti.reps.filter (fun r => isMatrix r.w && r.s + 7 + matLB r.w == c)).getLast? with
    | some r => { ti with act := ti.wsh, actScale := ti.wshScale, pass := r.s }
    | none => ti
  match (ti.reps.filter (fun r => isVector r.w && decide (0 < vecV r.w) && r.s + 6 == c)).getLast? with
  | some r => { ti with vu := r.s }
  | none => ti

/-- One ACLK cycle of a tile. Order within the cycle: register writes of AGLD, repeat bases, emission, arbitration, copy
of the weight shadow, reads and writes of the items due, address programs. A byte that the pipeline and an external access of
the cycle both write keeps the pipeline's value (R49). -/
def tileCycle (s : State) (t : Nat) : State :=
  let c := (s.tile t).cyc
  let s := forEach (s.tile t).reps s (fun s rp => loadModes s t c rp)
  let (s, held) := (s.tile t).reps.foldl
    (fun (x : State × List (Nat × Nat)) rp =>
      let (s, h) := agldWrite x.1 t c rp
      (s, match h with
        | some y => y :: x.2
        | none => x.2)) (s, [])
  let s := forEach (s.tile t).reps s (fun s rp =>
    if rp.s + 1 = c then
      (agsUsed rp.w).foldl (fun s n =>
        let (s, v) := agTake s t n rp
        let ti := s.tile t
        s.setT t { ti with reps := ti.reps.map (fun r =>
          if r.s = rp.s then { r with base := (List.range 3).map (fun k => if k = n then v else r.base.getD k 0) }
          else r) }) s
    else s)
  let s := forEach (s.tile t).reps s (fun s rp => emitRep s t c rp)
  let ti := s.tile t
  let due := ti.flight.filter (fun f => f.due == c)
  let lists := ti.reps.foldr (fun rp r => s.listReads t c rp ++ r) []
  let reqs := due.foldr (fun f r => flightReqs ti.reps f ++ r) [] ++ lists.map (fun x => (3 + x.1, x.2))
  let s := countDropped s t reqs
  let ti := s.tile t
  let ti := { ti with flight := ti.flight.filter (fun f => f.due != c) }
  let s := s.setT t (beginStreams ti c)
  let s0 := s.beforeExt t
  let s := forEach due s (fun s f => runFlight s0 reqs due t c s f)
  let s := forEach lists s (fun s x =>
    let bytes := if rowServed reqs x.2 then mread s0.mem (scratchBase t + 64 * x.2) 64 else List.replicate 64 0
    s.setAg t x.1 { s.agUnit t x.1 with row := (List.range 16).map (fun k => leNat ((bytes.drop (4 * k)).take 4)) })
  let s := forEach (List.range 3) s (fun s n =>
    apClock s t n c ((held.find? (fun h => h.1 == n)).map Prod.snd))
  let ti := s.tile t
  s.setT t { ti with cyc := c + 1, ext := [], reps := ti.reps.filter (fun r => decide (c < r.s + repLife r.w)) }

/-- Has the tile nothing to do in its next cycle. -/
def State.tileIdle (s : State) (t : Nat) : Bool :=
  (s.tile t).reps.isEmpty && (s.tile t).flight.isEmpty &&
    (List.range 3).all (fun n => !(s.bit (apBase t n) SEQ_APSTAT.RUN) && (s.agUnit t n).starts.isEmpty)

/-- Clock a tile for n cycles. An idle tile only counts. -/
def runCycles : Nat → State → Nat → State
  | 0, s, _ => s
  | n + 1, s, t =>
    if s.tileIdle t then
      let ti := s.tile t
      s.setT t { ti with cyc := ti.cyc + (n + 1), ext := [] }
    else runCycles n (tileCycle s t) t

/-- Clock a tile up to the start of cycle c. -/
def runTo (s : State) (t c : Nat) : State := runCycles (c - (s.tile t).cyc) s t

end Sys2Proof.Machine
end

