-- ==== Sys2Proof/Machine/Crc.lean ====
section
/-! DEFINITION. The checks over bytes that the device computes: CRC-32C (R161, R244, R282, R379), CRC-64 ECMA-182 (R409),
SHA-256 and SHA-384 (R438) with the RSA-3072 signature check of RSASSA-PKCS1-v1_5 (R380, R440, R447, R450, R501). -/

namespace Sys2Proof.Machine

/-- Eight steps of the reflected CRC-32C (polynomial 0x82F63B78 reflected). -/
def crc32cBits : Nat → Nat → Nat
  | 0, x => x
  | n + 1, x => crc32cBits n (if x % 2 = 1 then Nat.xor (x / 2) 0x82F63B78 else x / 2)

/-- CRC-32C of bytes: initial value and final XOR all ones. -/
def crc32c (bs : List Nat) : Nat :=
  Nat.xor (bs.foldl (fun x b => crc32cBits 8 (Nat.xor x (b % 256))) 0xFFFFFFFF) 0xFFFFFFFF

/-- Eight steps of CRC-64, most significant bit first. -/
def crc64Bits : Nat → Nat → Nat
  | 0, x => x
  | n + 1, x =>
    crc64Bits n (if 2 ^ 63 ≤ x then Nat.xor ((2 * x) % 2 ^ 64) 0x42F0E1EBA9EA3693 else 2 * x)

/-- crc64(x, b) of R409. -/
def crc64 (x : Nat) (bs : List Nat) : Nat :=
  bs.foldl (fun x b => crc64Bits 8 (Nat.xor x (b % 256 * 2 ^ 56))) x

/-- A big-endian number of n bytes as bytes, and back. -/
def beBytes (n x : Nat) : List Nat := (leBytes n x).reverse
def beNat (bs : List Nat) : Nat := leNat bs.reverse

/-! SHA-256 and SHA-384 (FIPS 180-4). The eight working variables are the last four values of two sequences of words, A and
E, each held newest first. -/

/-- What distinguishes the digests: word size, rounds, the rotations of the two message functions with their shifts and of the
two round functions, the primes whose square roots give the first state, and the words of the digest. -/
structure Sha where
  bits : Nat
  rounds : Nat
  m0 : List Nat × Nat
  m1 : List Nat × Nat
  rA : List Nat
  rE : List Nat
  skip : Nat
  words : Nat

def sha2 : Sha := ⟨32, 64, ([7, 18], 3), ([17, 19], 10), [2, 13, 22], [6, 11, 25], 0, 8⟩
def sha3 : Sha := ⟨64, 80, ([1, 8], 7), ([19, 61], 6), [28, 34, 39], [14, 18, 41], 8, 6⟩

/-- The largest x below 2^n on top of x0 whose power d is at most m. -/
def rootBelow (d m : Nat) : Nat → Nat → Nat
  | 0, x => x
  | n + 1, x => rootBelow d m n (if (x + 2 ^ n) ^ d ≤ m then x + 2 ^ n else x)

/-- The first bits of the fraction of the root of degree d of p. -/
def rootBits (bits d p : Nat) : Nat := rootBelow d (p * 2 ^ (bits * d)) (bits + 5) 0 % 2 ^ bits

/-- The first 80 primes. -/
def shaPrimes : List Nat :=
  ((List.range 410).drop 2).filter (fun p => [2, 3, 5, 7, 11, 13, 17, 19].all (fun d => p == d || p % d != 0))

/-- The exclusive or of a word rotated right by each of some counts. -/
def turns (bits : Nat) (rs : List Nat) (x : Nat) : Nat :=
  rs.foldl (fun y r => Nat.xor y (x / 2 ^ r + x * 2 ^ (bits - r) % 2 ^ bits)) 0

/-- The message words grown by one, newest first: rotations with one shift of the words 15 and 2 back, and the words 16 and 7
back. -/
def shaGrow (v : Sha) (ws : List Nat) : List Nat :=
  let back := fun k => ws.getD (k - 1) 0
  let mix := fun (m : List Nat × Nat) x => Nat.xor (turns v.bits m.1 x) (x / 2 ^ m.2)
  (mix v.m0 (back 15) + mix v.m1 (back 2) + back 16 + back 7) % 2 ^ v.bits :: ws

/-- One round with the sum of its constant and its message word. -/
def shaStep (v : Sha) (x : List Nat × List Nat) (kw : Nat) : List Nat × List Nat :=
  let A := fun k => x.1.getD (k - 1) 0
  let E := fun k => x.2.getD (k - 1) 0
  let choice := Nat.xor (Nat.land (E 1) (Nat.xor (E 2) (E 3))) (E 3)
  let most := Nat.lor (Nat.land (A 1) (Nat.lor (A 2) (A 3))) (Nat.land (A 2) (A 3))
  let t := E 4 + turns v.bits v.rE (E 1) + choice + kw
  ((t + turns v.bits v.rA (A 1) + most) % 2 ^ v.bits :: x.1.take 3, (A 4 + t) % 2 ^ v.bits :: x.2.take 3)

/-- The 16 words of a block, most significant byte first. -/
def shaWords (v : Sha) (bs : List Nat) : List Nat :=
  let n := v.bits / 8
  (List.range 16).map (fun k => beNat ((bs.drop (n * k)).take n))

/-- The digest state after one block. -/
def shaBlock (v : Sha) (x : List Nat × List Nat) (blk : List Nat) : List Nat × List Nat :=
  let ws := ((List.range (v.rounds - 16)).foldl (fun ws _ => shaGrow v ws) (shaWords v blk).reverse).reverse
  let u := (List.zipWith (fun p w => rootBits v.bits 3 p + w) shaPrimes ws).foldl (shaStep v) x
  let sum := List.zipWith (fun a b => (a + b) % 2 ^ v.bits)
  (sum x.1 u.1, sum x.2 u.2)

/-- The digest of a message: the message, a bit 1, zeros up to the place of its length in bits at the end of a block. -/
def shaDigest (v : Sha) (bs : List Nat) : List Nat :=
  let blk := 2 * v.bits
  let len := v.bits / 4
  let n := bs.length
  let m := bs ++ 0x80 :: List.replicate ((2 * blk - 1 - len - n % blk) % blk) 0 ++ beBytes len (8 * n)
  let iv := ((shaPrimes.drop v.skip).take 8).map (rootBits v.bits 2)
  let x := (List.range (m.length / blk)).foldl (fun x k => shaBlock v x ((m.drop (blk * k)).take blk)) (iv.take 4, iv.drop 4)
  ((x.1 ++ x.2).take v.words).foldr (fun w r => beBytes (v.bits / 8) w ++ r) []

/-- SHA-256 as 32 bytes, SHA-384 as 48. -/
def sha256 (bs : List Nat) : List Nat := shaDigest sha2 bs
def sha384 (bs : List Nat) : List Nat := shaDigest sha3 bs

/-- The public operation of RSA with exponent 65,537: sixteen squarings and a product. -/
def rsaPublic (n s : Nat) : Nat :=
  (List.range 16).foldl (fun x _ => x * x % n) (s % n) * s % n

/-- RSASSA-PKCS1-v1_5 verification with SHA-256 over 3,072 bits: modulus as a number, signature as 384 bytes, most
significant first. -/
def rsaVerify (modulus : Nat) (msg sig : List Nat) : Bool :=
  let t := [0x30, 0x31, 0x30, 0x0d, 0x06, 0x09, 0x60, 0x86, 0x48, 0x01, 0x65, 0x03, 0x04, 0x02, 0x01, 0x05, 0x00,
            0x04, 0x20] ++ sha256 msg
  let em := [0x00, 0x01] ++ List.replicate 330 0xFF ++ [0x00] ++ t
  sig.length == 384 && decide (beNat sig < modulus) && beBytes 384 (rsaPublic modulus (beNat sig)) == em

end Sys2Proof.Machine
end

