-- ==== Sys2Proof/Machine/Phase.lean ====
section
/-! DEFINITION. Phases, fingerprints, census records, the trace and census rings, closes and step skipping
(13_training_support.md, R404 to R425). -/

namespace Sys2Proof.Machine

/-- The Collar of partition k (R432). -/
def State.partCollar (s : State) (k : Nat) : Nat := k * 2 ^ 28 + (s.part k).jdom

/-- The stage of a queue (R386): of its tile, or of the lowest-indexed present tile of its pack. -/
def State.qStage (s : State) (q : QId) : Nat :=
  let t := match q with
    | .cq t => t
    | .mq t => t
    | .gq p => (s.packTiles p).headD (9 * p)
    | .pmq p => (s.packTiles p).headD (9 * p)
  match s.packPart (packOf t) with
  | some k => s.rd (shapePBase k) (SHAPE_TSTAGE.ST t)
  | none => 0

/-- One record from a stop into the census ring (base `cenBase k`) or the trace ring (base `trcPBase k`) of partition k, with the
watermark event (R417). -/
def ringRecord (s : State) (from_ : Nat × Nat) (k base : Nat) (e : Ev) (rcd : List Nat) : State :=
  let wr := s.rd base CEN_RWR.COUNT
  let rd := s.rd base CEN_RRD.COUNT
  let wm := s.rd base CEN_RCFG.WM
  let (s, ok) := ringPut s from_ k (s.rd base CEN_RBASE.BASE * 4096) (ringLog (s.rd base CEN_RCFG.LOG2) 30) wr rd rcd
  if ok then
    let s := s.wr base CEN_RWR.COUNT (wr + 64)
    if wm ≠ 0 ∧ wr - rd < wm ∧ wm ≤ wr + 64 - rd then raiseEv s e (some k) { detail := wr + 64 } else s
  else
    let s := s.bump base CEN_RDROP.COUNT CEN_RDROP.WRAP 1
    s.setP k { s.part k with dropped := true }

def traceRecord (s : State) (k : Nat) (rcd : List Nat) : State := ringRecord s trcStop k (trcPBase k) .trcRingWm rcd

/-- A census record, which pack p writes (R414). -/
def censusRing (s : State) (k p : Nat) (rcd : List Nat) : State :=
  ringRecord s (packStop p) k (cenBase k) .cenRingWm rcd

/-- A record's bytes padded with zeros to 64. -/
def pad64 (bs : List Nat) : List Nat := (bs ++ List.replicate 64 0).take 64

/-- A count that stops at the maximum of n bytes. -/
def capped (n x : Nat) : List Nat := leBytes n (min x (256 ^ n - 1))

/-- A largest exponent in two bytes (R415). -/
def expBytes : Option Int → List Nat
  | some e => leBytes 2 (toBits 16 e)
  | none => [0x00, 0x80]

/-- Census counts in the layout of R415, from offset 0x10 to 0x2F. -/
def censusCounts (c : Census) (stage : Nat) : List Nat :=
  let stop := 256 ^ 4 ≤ c.sat ∨ 256 ^ 4 ≤ c.flush ∨ 256 ^ 8 ≤ c.nan ∨ 256 ^ 8 ≤ c.inf
  capped 8 c.nan ++ capped 8 c.inf ++ capped 4 c.sat ++ capped 4 c.flush ++ expBytes c.maxe ++
    [stage % 16 + (if stop then 16 else 0), 0, 0, 0, 0, 0]

/-- A census record (R415). -/
def censusRecord (w phase qw num time stage : Nat) (c : Census) : List Nat :=
  leBytes 2 (cwTAG w) ++ [cwOPCODE w, phase % 64 + 64 * (min c.replays 2)] ++ leBytes 4 qw ++ leBytes 8 num ++
    censusCounts c stage ++ leBytes 8 time ++ leBytes 8 0

def State.phaseRec (s : State) (k ph : Nat) : PhaseRec := tgetD (s.part k).phases ph {}
def State.setPhase (s : State) (k ph : Nat) (r : PhaseRec) : State :=
  let p := s.part k
  s.setP k { p with phases := tset p.phases ph r }

/-- A queue hands in its segment for the phase it occupies (R413). -/
def handIn (s : State) (k : Nat) (q : QId) : State :=
  let qu := s.queue q
  if qu.segUsed then
    let ph := qu.phase
    let n := tgetD qu.segNo ph 0
    let c := crc64 0 (leBytes 4 (qWord q) ++ leBytes 4 n ++ leBytes 8 qu.seg)
    let s := s.wr (cenBase k) (CEN_PH_FP.A ph) (s.rd (cenBase k) (CEN_PH_FP.A ph) + c)
    let s := if s.bit (cenBase k) CEN_PCTRL.FPDETAIL then
        traceRecord s k (pad64 ([3, ph, 0, 0] ++ leBytes 4 (qWord q) ++ leBytes 8 qu.seg ++ leBytes 4 n ++ leBytes 4 0 ++
          leBytes 8 s.ns ++ leBytes 8 (s.rd (qBase q) SEQ_QRETIRED.COUNT)))
      else s
    s.setQ q { s.queue q with segNo := tset qu.segNo ph (n + 1), seg := 0, segUsed := false }
  else s

/-- A change into a phase: the first one since the last close sets its start (R406). -/
def enterPhase (s : State) (k ph : Nat) : State :=
  let r := s.phaseRec k ph
  let s := if r.started then s else s.wr (cenBase k) (CEN_PH_START.TIME ph) s.ns
  s.setPhase k ph { s.phaseRec k ph with started := true, entered := true }

/-- A queue changes phase (R404, R406, R413). -/
def changePhase (s : State) (k : Nat) (q : QId) (ph : Nat) : State :=
  let old := (s.queue q).phase
  let s := handIn s k q
  let s := s.wr (cenBase k) (CEN_PH_STOP.TIME old) s.ns
  let s := s.setQ q { s.queue q with phase := ph }
  enterPhase s k ph

/-- The phase record of phase ph (R418). -/
def phaseRecord (s : State) (k ph : Nat) (host : Bool) : List Nat :=
  let r := s.phaseRec k ph
  let b := cenBase k
  let flags := (if host then 1 else 0) + (if (s.part k).dropped then 2 else 0)
  [2, ph, k, flags] ++ leBytes 4 r.inst ++ leBytes 8 (s.rd b (CEN_PH_FP.A ph)) ++
    leBytes 8 (s.rd b (CEN_PH_CYC.COUNT ph)) ++ leBytes 8 (s.rd b (CEN_PH_START.TIME ph)) ++
    leBytes 8 (s.rd b (CEN_PH_STOP.TIME ph)) ++ capped 4 r.cmds ++ capped 4 r.cen.nan ++ capped 4 r.cen.inf ++
    capped 4 r.cen.sat ++ capped 4 r.cen.flush ++ expBytes r.cen.maxe ++ capped 2 r.cen.replays

/-- The close of one phase (R407, steps 1 to 4). `left` says that participating queues leave it, `stay` that queues occupy
it after the close. -/
def closePhase (s : State) (k ph : Nat) (host left stay : Bool) : State :=
  let b := cenBase k
  let r := s.phaseRec k ph
  let s := s.setPhase k ph { r with inst := (r.inst + 1) % 2 ^ 32 }
  let s := if left then s.wr b (CEN_PH_STOP.TIME ph) s.ns else s
  let rcd := phaseRecord s k ph host
  let s := s.setP k { s.part k with dropped := false }
  let s := traceRecord s k rcd
  let s := s.wr b (CEN_PH_FP.A ph) 0
  let s := s.wr b (CEN_PH_CYC.COUNT ph) 0
  let s := s.wr b (CEN_PH_STOP.TIME ph) 0
  let s := s.wr b (CEN_PH_START.TIME ph) (if stay then s.ns else 0)
  s.setPhase k ph { inst := (r.inst + 1) % 2 ^ 32, started := stay }

/-- CEN_PHASE_CLOSED, which ends a close (R407). -/
def phasesClosed (s : State) (k : Nat) : State :=
  raiseEv s .cenPhaseClosed (some k) { detail := s.rd (cenBase k) CEN_PSTAT.CLOSES }

/-- Publish the sticky flags at CEN_NFSRC (R423). -/
def publishNf (s : State) (k : Nat) : State :=
  let b := cenBase k
  let v := if s.bit b CEN_PSTAT.NAN || s.bit b CEN_PSTAT.INF then 0x3F800000 else 0
  let (s, st) := memWrite s (.collar (s.partCollar k)) (s.rd b CEN_NFSRC.ADDR) (leBytes 4 v ++ List.replicate 28 0)
  if st = 0 then (s.wr b CEN_PSTAT.NAN 0).wr b CEN_PSTAT.INF 0 else s

/-- A close of the phase records of partition k (R407): by the host, or by a switch into a phase (`to`) with its
participating queues. The OVERLAY commands retire after it and the event comes last, in the caller. -/
def closePhases (s : State) (k : Nat) (dst : Option Nat) (parts : List QId) : State :=
  let b := cenBase k
  let qs := s.partQueues k
  let s := forEach qs s (fun s q => handIn s k q)
  let occ := fun (s : State) (ph : Nat) => qs.any (fun q => (s.queue q).phase == ph)
  let s0 := s
  let phs := (List.range 64).filter (fun ph => (s0.phaseRec k ph).entered || occ s0 ph)
  let s := forEach phs s (fun s ph =>
    let here := parts.any (fun q => (s0.queue q).phase == ph)
    let stay := match dst with
      | none => occ s0 ph
      | some t => t == ph && !parts.isEmpty || qs.any (fun q => !(parts.contains q) && (s0.queue q).phase == ph)
    closePhase s k ph dst.isNone (here && dst.isSome && dst != some ph) stay)
  let s := forEach qs s (fun s q => s.setQ q { s.queue q with segNo := [] })
  let nfph := s.rd b CEN_PCTRL.NFPH
  let s := if s.bit b CEN_PCTRL.NFEN && (match dst with
      | some t => t == nfph
      | none => qs.all (fun q => (s.queue q).phase == nfph)) then publishNf s k else s
  let s := match dst with
    | some t => forEach parts s (fun s q =>
        let s := s.setQ q { s.queue q with phase := t }
        enterPhase s k t)
    | none => s
  s.wr b CEN_PSTAT.CLOSES (s.rd b CEN_PSTAT.CLOSES + 1)

/-- A command's census at retirement: phase totals, sticky flags, and a record under CMODE (R414, R423). `work` says that
the command does data work. -/
def censusAt (s : State) (k : Nat) (q : QId) (w : Nat) (c : Census) (work : Bool) : State :=
  let b := cenBase k
  let ph := (s.queue q).phase
  let r := s.phaseRec k ph
  let s := s.setPhase k ph { r with cen := cenAdd r.cen c }
  let pk := packCenBase (qPack q)
  let s := if c.nan = 0 then s else (s.wr b CEN_PSTAT.NAN 1).wr pk CEN_PKSTAT.NAN 1
  let s := if c.inf = 0 then s else (s.wr b CEN_PSTAT.INF 1).wr pk CEN_PKSTAT.INF 1
  let rcd := censusRecord w ph (qWord q) (s.rd (qBase q) SEQ_QRETIRED.COUNT) s.ns (s.qStage q) c
  match s.rd b CEN_PCTRL.CMODE with
  | 0 => s
  | 1 => if c.nan + c.inf + c.sat + c.flush + c.replays = 0 then s else censusRing s k (qPack q) rcd
  | _ => if work then censusRing s k (qPack q) rcd else s

/-- Does a command of a queue do data work (R139, R414), loop counts apart: the kinds that make a census, outside the cases of
R139. -/
def doesData (w : Nat) : Bool :=
  cwREPEAT w != 0 && (isMatrix w || (isVector w && vecV w != 0) || cwOPCODE w == opAGLD || cwOPCODE w == opCOLL)

/-- A trace record of MARK (R418) for a repeat that issues at a fabric time. -/
def markRecord (s : State) (k : Nat) (q : QId) (w time : Nat) : State :=
  traceRecord s k (pad64 ([1, markCLASS w] ++ leBytes 2 (cwTAG w) ++ leBytes 4 (qWord q) ++ leBytes 8 time ++
    leBytes 8 (s.rd (qBase q) SEQ_QRETIRED.COUNT) ++ [(s.queue q).phase, s.qStage q]))

end Sys2Proof.Machine
end

