-- ==== Sys2Proof/Machine/Queue.lean ====
section
/-! DEFINITION. Queues (05_command_streams.md): what holds a queue, refusals at issue, faults, the start of a command,
its completion, retirement, and the actions on SEQ_QCTRL and SEQ_QTAIL. -/

namespace Sys2Proof.Machine

/-! Coordinates (R6 to R8). A coordinate is bits [23:5] of an endpoint ID. -/

def State.coord (s : State) : Nat := s.rd (lnkBase 0) LNK_COORD.COORD
def coordX (c : Nat) : Nat := c % 8
def coordY (c : Nat) : Nat := c / 8 % 8
def coordZ (c : Nat) : Nat := c / 64 % 8
def coordW (c : Nat) : Nat := c / 512
def slotOf (c : Nat) : Nat := coordX c % 2 + 2 * (coordY c % 2) + 4 * (coordZ c % 2)
def mkCoord (w z y x : Nat) : Nat := w * 512 + z * 64 + y * 8 + x

/-- The partition's FIFO and list modes (R137, R148). -/
def State.modeOn (s : State) (q : QId) (m : Nat) : Bool :=
  match s.qPart q with
  | some k => if m = 1 then s.bit shapeBase (SHAPE_AMODE.FIFO k) else if m = 2 then s.bit shapeBase (SHAPE_AMODE.LIST k)
    else true
  | none => m != 1 && m != 2

/-- Does a range of a MOVE lie within the tile's own scratch window (R202). -/
def State.ownScratch (s : State) (t a len : Nat) : Bool :=
  let lo := scratchBase t
  a / 2 ^ 40 == slotOf s.coord && decide (lo ≤ a % 2 ^ 40) && decide (a % 2 ^ 40 + max 1 len ≤ lo + 0x400000)

/-- NOT_OWN of R202. -/
def State.notOwn (s : State) (q : QId) (w : Nat) : Bool :=
  match q with
  | .mq t =>
    let n := cwREPEAT w * moveLEN w
    cwOPCODE w == opMOVE && !(s.ownScratch t (moveSRC w) n) && !(s.ownScratch t (moveDST w) n)
  | _ => false

/-- CTR_RANGE of R206, R207 and R208. -/
def State.ctrRange (s : State) (q : QId) (w : Nat) : Bool :=
  let op := cwOPCODE w
  if op = opWAIT then !(s.inRange (qPack q) (waitIDX w))
  else if op = opSKIPIF then !(s.inRange (qPack q) (skipIfIDX w))
  else if op = opSIGNAL ∧ signalKIND w = 0 then
    let ep := signalEP w
    ep / 32 == s.coord && decide (ep % 32 < 16) &&
      !(s.inRange (ep % 32) (signalIDX w) && s.packPart (ep % 32) == s.qPart q)
  else false

/-- Stands a queue at a switch: it has arrived, or been released and not yet issued its OVERLAY (R395, R397). -/
def Queue.atSwitch (qu : Queue) : Bool := qu.arrived || qu.released

/-- Has the wait of a queue been released. -/
def Queue.waitOver (qu : Queue) : Bool :=
  match qu.wait with
  | some x => x.released
  | none => false

/-- BAD_OVERLAY of R209 and R396: the check is made at the first arrival of a switch. -/
def State.badOverlay (s : State) (q : QId) (w : Nat) : Bool :=
  match s.qPart q with
  | some k =>
    cwOPCODE w == opOVERLAY && cwREPEAT w != 0 && !(s.bit (shapePBase k) SHAPE_OVSTAT.PENDING) && !((s.queue q).atSwitch) &&
      !(bitAt (s.rd (shapePBase k) SHAPE_OVSTAT.HELD) (overlayOVL w))
  | none => false

/-- The fault code that refuses a command at issue, the first that applies in the order of R556. -/
def State.refuseCode (s : State) (q : QId) (w : Nat) : Option Nat :=
  let op := cwOPCODE w
  let ags := if qKind q = 0 then agsUsed w else []
  ([((opQueues op).isEmpty, 0x01),
    (!((opQueues op).contains (qKind q)), 0x03),
    (envReserved w || decide (2 ^ 20 < cwREPEAT w) || ags.any (fun n => amOf w n == 3), 0x02),
    (ags.contains 2 && cwAM2 w == 2, 0x04),
    (ags.any (fun n => !(s.modeOn q (amOf w n))), 0x05),
    (cwSIG w == 1 && !(s.inRange (qPack q) (cwSIGIDX w)), 0x06),
    (op == opMMALB && (match q with
      | .cq t => t % 9 != 8
      | _ => false), 0x0A),
    (badFormat w, 0x20), (needScale w, 0x21), (badScale w, 0x22), (srpFlags w, 0x23), (badField w, 0x24),
    (badAlign w, 0x25), (s.notOwn q w, 0x26), (s.ctrRange q w, 0x27), (s.badOverlay q w, 0x28)].find?
      (fun x => x.1)).map Prod.snd

/-- The subject byte of a refusal's event: for the address-mode causes the first AG concerned, else 0 (R535). -/
def State.refuseSubj (s : State) (q : QId) (w code : Nat) : Nat :=
  let ag := fun (bad : Nat → Bool) => if qKind q = 0 then ((agsUsed w).find? bad).getD 0 else 0
  if code = 0x04 then 2
  else if code = 0x05 then ag (fun n => !(s.modeOn q (amOf w n)))
  else if code = 0x02 ∧ !(envReserved w) ∧ cwREPEAT w ≤ 2 ^ 20 then ag (fun n => amOf w n == 3)
  else 0

/-- Is HALT, a break, a fault, a completed preemption or a clear EN stopping the queue. -/
def State.stopped (s : State) (q : QId) : Bool :=
  let b := qBase q
  !(s.bit b SEQ_QCTRL.EN) || s.bit b SEQ_QCTRL.HALT || s.bit b SEQ_QSTAT.BREAK || s.bit b SEQ_QSTAT.FAULT ||
    s.bit b SEQ_QSTAT.PREEMPTED

/-- Is HALT, a break, a fault, a preemption or a clear EN keeping the queue from its next command (R142, R159, R160,
R165). HALT and a preemption act after an OVERLAY at which the queue has arrived (R399), and after a WAIT that has been released,
whose issue is its release (R141). -/
def State.held (s : State) (q : QId) : Bool :=
  let qu := s.queue q
  if qu.atSwitch || qu.waitOver then
    !(s.bit (qBase q) SEQ_QCTRL.EN) || s.bit (qBase q) SEQ_QSTAT.FAULT || s.bit (qBase q) SEQ_QSTAT.PREEMPTED
  else s.stopped q ||
    (match q with
     | .cq t => (s.tile t).preempting || (s.tile t).restoring
     | .mq t => (s.tile t).preempting || (s.tile t).restoring
     | .gq p => s.bit (packBase p) SEQ_PCTRL.PREEMPT
     | .pmq p => s.bit (packBase p) SEQ_PCTRL.PREEMPT)

def State.qHead (s : State) (q : QId) : Nat := s.rd (qBase q) SEQ_QHEAD.HEAD
def State.qTail (s : State) (q : QId) : Nat := s.rd (qBase q) SEQ_QTAIL.TAIL

/-- The command at HEAD, when it is published and fetched (R133). -/
def State.headCmd (s : State) (q : QId) : Option (Nat × Nat) :=
  if s.qHead q = s.qTail q then none
  else ((s.queue q).pre.find? (fun x => x.1 == s.qHead q))

/-- SEQ_QSTAT.IDLE: no command held or in progress. -/
def State.qIdle (s : State) (q : QId) : Bool :=
  (s.queue q).prog.isEmpty && (s.queue q).cur.isNone &&
    (s.qHead q == s.qTail q || !(s.bit (qBase q) SEQ_QCTRL.EN))

/-- An idle queue's Leash count is 0 (R236), and the microsecond that has begun does not count for what it takes up next
(R237). -/
def settleIdle (s : State) (q : QId) : State :=
  if s.qIdle q then (s.setQ q { s.queue q with whole := false }).wr (qBase q) SEQ_QLSTAT.ELAPSED 0 else s

/-- Commands issued since the queue was last enabled (R157): those retired, which EN counts from 0, and those in progress. -/
def State.qIssued (s : State) (q : QId) : Nat :=
  s.rd (qBase q) SEQ_QRETIRED.COUNT + (s.queue q).prog.length

/-- Does a break hold the queue before a command that `ahead` others precede (R157, R158). -/
def State.breakAt (s : State) (q : QId) (w ahead : Nat) : Bool :=
  let b := qBase q
  let m := s.rd b SEQ_QBRKTAG.MASK
  !((s.queue q).brkPass && ahead == 0) &&
    ((s.bit b SEQ_QBRKTAG.CNT_EN && s.qIssued q + ahead == s.rd b SEQ_QBRKCNT.VALUE) ||
     (s.bit b SEQ_QBRKTAG.TAG_EN && Nat.land (cwTAG w) m == Nat.land (s.rd b SEQ_QBRKTAG.TAG) m))

/-- Set FAULT with its code and raise SEQ_FAULT (R166, R218). The open issue block stops: by a fault after issue at once, even
between the repeats of a command, by any other between commands (R142). -/
def setFault (s : State) (q : QId) (h : Hold) (w code status addr coll : Nat) : State :=
  let b := qBase q
  let s := s.wr b SEQ_QSTAT.FAULT 1
  let s := s.wr b SEQ_QSTAT.FAULT_CODE code
  let s := if h = .overrun || h = .fetch then s else s.wr b SEQ_QSTAT.TAG (cwTAG w)
  let qu := s.queue q
  let s := s.setQ q { qu with hold := h, blk := 0, isOpen := (match h with
    | .after _ => false
    | _ => qu.cur.isSome && qu.isOpen) }
  let s := match q with
    | .cq t => if code = 0x0A then s.wr (tileBase t) TILE_STAT.NO_LOWBIT 1 else s
    | _ => s
  raiseEv s .seqFault (s.qPart q)
    { qword := qWord q, status := status, subj := if h = .refused then s.refuseSubj q w code else 0,
      tag := if h = .overrun || h = .fetch then 0 else cwTAG w,
      addr := addr, retired := s.rd b SEQ_QRETIRED.COUNT, detail := code + 256 * coll }

/-- Change the entry of an issued command. -/
def setProg (s : State) (q : QId) (num : Nat) (f : Prog → Prog) : State :=
  let qu := s.queue q
  s.setQ q { qu with prog := qu.prog.map (fun p => if p.num = num then f p else p) }

def State.progOf (s : State) (q : QId) (num : Nat) : Option Prog := (s.queue q).prog.find? (fun p => p.num == num)

/-- Has a command faulted after issue. -/
def Prog.faulted (p : Prog) : Bool :=
  match p.st with
  | .fault _ _ _ _ => true
  | _ => false

/-- The first command that has faulted after issue is reported, when no fault is shown, and the queue holds at it (R218). While
another fault is shown the open block stops all the same, between the repeats of a command too (R142). -/
def showFault (s : State) (q : QId) : State :=
  if s.bit (qBase q) SEQ_QSTAT.FAULT then
    if (s.queue q).prog.any Prog.faulted then s.setQ q { s.queue q with blk := 0, isOpen := false } else s
  else match (s.queue q).prog.find? Prog.faulted with
    | some p => match p.st with
      | .fault c st a co => setFault s q (.after p.num) p.w c st a co
      | _ => s
    | none => s

/-- An issued command ends its own work: complete, or faulted after issue (R147, R217, R218). -/
def finishProg (s : State) (q : QId) (p : Prog) : State :=
  match p.err with
  | none => setProg s q p.num (fun _ => { p with st := .done })
  | some (st, a, co) =>
    let code := if cwOPCODE p.w = opCOLL then 0x31 else 0x30
    showFault (setProg s q p.num (fun _ => { p with st := .fault code st a co, fp := [] })) q

/-- One piece of an issued command's work is complete, with its completion status, failing address and collective
status. The first error counts (R333, R367). -/
def pieceDone (s : State) (q : QId) (num status addr coll : Nat) : State :=
  match s.progOf q num with
  | none => s
  | some p =>
    if p.st != .work then s
    else
      let p := { p with
        pieces := p.pieces - 1
        err := if p.err = none ∧ (status ≠ 0 ∨ coll ≠ 0) then some (status, addr, coll) else p.err }
      if p.pieces = 0 ∧ (p.left = 0 ∨ p.err ≠ none) then finishProg s q p
      else setProg s q num (fun _ => p)

/-- A collective of repeat r of a COLL has completed: the first failing one in repeat order counts (R367). -/
def collDone (s : State) (q : QId) (num r status addr coll : Nat) : State :=
  match s.progOf q num with
  | none => s
  | some p =>
    if coll ≠ 0 ∧ (p.err = none ∨ r < p.errRep) then
      pieceDone (setProg s q num (fun p => { p with err := some (status, addr, coll), errRep := r })) q num 0 0 0
    else pieceDone s q num 0 0 0

/-- A command starts: HEAD moves past it, its TAG shows, and it waits for its work and retirement (R132, R147). -/
def beginCmd (s : State) (q : QId) (num w : Nat) (st : Wk) (due : Nat) : State :=
  let b := qBase q
  let s := s.wr b SEQ_QHEAD.HEAD (s.qHead q + 1)
  let s := s.wr b SEQ_QSTAT.TAG (cwTAG w)
  let qu := s.queue q
  s.setQ q { qu with
    pre := qu.pre.filter (fun x => x.1 != num), brkPass := false
    prog := qu.prog ++ [{ num := num, w := w, st := st, due := due, left := cwREPEAT w }] }

/-- Does a COLL with a repeat that waits for a context hold its GQ (R357). -/
def State.collWaits (s : State) (q : QId) : Bool :=
  (s.queue q).prog.any (fun p => cwOPCODE p.w == opCOLL && p.st == .work && p.left != 0)

/-- The command that MQ, GQ or PMQ may start now, when its opcode is the one asked for: MQ and PMQ keep up to 4 commands in
progress, which end with their retirement (R146, R147). -/
def State.readyNq (s : State) (q : QId) (op : Nat) : Option (Nat × Nat) :=
  match s.headCmd q with
  | some (num, w) =>
    let qu := s.queue q
    if qKind q ≠ 0 ∧ !(s.collWaits q) ∧ cwOPCODE w = op ∧ !(s.held q) ∧ qu.skip = 0 ∧ !(s.breakAt q w 0) ∧ s.refuseCode q w = none ∧
        !((qKind q == 1 || qKind q == 3) && decide (4 ≤ qu.prog.length)) then some (num, w) else none
  | none => none

/-- Retirement of the oldest command (R147): the count, then its census and fingerprint, then SIG, then EVT. A skipped
command counts and does nothing else (R208, R166). -/
def retireFront (s : State) (q : QId) : State :=
  match (s.queue q).prog with
  | [] => s
  | p :: r =>
    let b := qBase q
    let nosig := p.st == .skipped
    let s := s.wr b SEQ_QRETIRED.COUNT (s.rd b SEQ_QRETIRED.COUNT + 1)
    let s := s.wr b SEQ_QLSTAT.ELAPSED 0
    let s := s.setQ q { s.queue q with prog := r, lastRetire := s.ns, armed := true, whole := false }
    let s := match s.qPart q with
      | none => s
      | some k =>
        let ph := (s.queue q).phase
        let rec_ := s.phaseRec k ph
        let s := s.setPhase k ph { rec_ with cmds := rec_.cmds + 1 }
        if nosig then s
        else
          let s := if qKind q = 0 || cwOPCODE p.w == opCOLL then
              censusAt s k q p.w p.census (doesData p.w && !p.idle) else s
          if p.fp.isEmpty then s
          else
            let qu := s.queue q
            s.setQ q { qu with seg := p.fp.foldl (fun x d => crc64 x d.2) qu.seg, segUsed := true }
    let s := if !nosig && cwSIG p.w == 1 && s.inRange (qPack q) (cwSIGIDX p.w) then
        ctrAdd s (qPack q) (cwSIGIDX p.w) (if cwOPCODE p.w = opRCOPY then ctrSwitch else qRank q) 1 else s
    let s := if !nosig && cwEVT p.w == 1 then
        raiseEv s .seqTagdone (s.qPart q)
          { qword := qWord q, tag := cwTAG p.w, retired := s.rd b SEQ_QRETIRED.COUNT } else s
    let s := match s.qPart q with
      | some k => if !nosig && cwOPCODE p.w == opPHASE then
          (List.range (min 2 (cwREPEAT p.w))).foldl (fun s _ => changePhase s k q (phasePHID p.w)) s else s
      | none => s
    showFault s q

/-- A skipped command retires without being checked or issued (R208). -/
def retireSkipped (s : State) (q : QId) : State :=
  let num := s.qHead q
  let w := match s.headCmd q with
    | some (_, w) => w
    | none => 0
  let s := s.wr (qBase q) SEQ_QHEAD.HEAD (num + 1)
  let qu := s.queue q
  let s := s.setQ q { qu with
    pre := qu.pre.filter (fun x => x.1 != num), skip := qu.skip - 1, brkPass := false
    prog := [{ num := num, w := w, st := .skipped }] }
  retireFront s q

/-- The open block takes no further command; the command that is being issued goes on (R142). -/
def stopBlock (s : State) (q : QId) : State :=
  let qu := s.queue q
  s.setQ q { qu with blk := 0, isOpen := qu.isOpen && qu.cur.isSome }

/-- A fetch from host memory that is under way delivers nothing more. -/
def dropFetch (s : State) (q : QId) : State :=
  if (s.queue q).fetching.isSome then
    let s := s.setQ q { s.queue q with fetching := none }
    { s with haccs := s.haccs.filter (fun x => match x.2.owner with
      | .fetch q' _ _ => q' != q
      | _ => true) }
  else s

/-- Does a transfer or a host access belong to a queue. -/
def Owner.ofQueue (q : QId) : Owner → Bool
  | .cmd q' _ _ => q' == q
  | .fetch q' _ _ => q' == q
  | _ => false

/-- The transfers and host accesses of a queue go on no longer, and the Retrievers that ran or awaited its copies are free of
them (R171, R204). -/
def dropCopies (s : State) (q : QId) : State :=
  let gone := (s.haccs.filter (fun x => x.2.owner.ofQueue q)).map Prod.fst
  let s := { s with
    xfers := s.xfers.filter (fun x => !(x.2.owner.ofQueue q))
    haccs := s.haccs.filter (fun x => !(gone.contains x.1))
    hpieces := s.hpieces.filter (fun x => !(gone.contains x.2.acc)) }
  forEach (List.range 4) s (fun s n =>
    let r := s.ret (qPack q) n
    let mine := match r.cur with
      | some (q', _) => q' == q
      | none => false
    if mine then
      s.setR (qPack q) n { r with cur := none, cmd := 0, state := 0, waiting := r.waiting.filter (fun x => x.1 != q) }
    else if r.waiting.any (fun x => x.1 == q) then
      s.setR (qPack q) n { r with waiting := r.waiting.filter (fun x => x.1 != q) }
    else s)

/-- A queue is abandoned: what it held and what it had in progress is dropped (R166, R218, R433, R444), its transfers too (DESIGN
CHOICE, log 122: the manual does not say what becomes of them). A Leash that has fired stays so (R237). -/
def abandon (s : State) (q : QId) : State :=
  let s := dropCopies (dropFetch (dropWait s q) q) q
  let qu := s.queue q
  let s := s.setQ q { qu with
    pre := [], fetchErr := none, prog := [], cur := none, isOpen := false, blk := 0, hold := .none, brkPass := false
    skip := 0, wait := none, arrived := false, released := false, whole := false }
  let b := qBase q
  let s := s.wr b SEQ_QSTAT.PREEMPTED 0
  s.wr b SEQ_QLSTAT.ELAPSED 0

/-- The commands of an open block that may still issue: the first of them that is no longer published, or that a break holds,
ends it (R133, R142, R157, R158). -/
def clipBlock (s : State) (q : QId) : State :=
  let qu := s.queue q
  if qu.isOpen then
    let ok := fun i => match qu.pre.find? (fun x => x.1 == (s.qHead q + i) % 2 ^ 32) with
      | some (_, w) => !(s.breakAt q w i)
      | none => false
    let n := ((List.range qu.blk).takeWhile ok).length
    s.setQ q { qu with blk := n, isOpen := n != 0 || qu.cur.isSome }
  else s

/-- The commands from number v on are published no longer: what was read of them will be read again (R133). -/
def retract (s : State) (q : QId) (v : Nat) : State :=
  let off := fun n => (n + 2 ^ 32 - s.qHead q) % 2 ^ 32
  let s := dropFetch s q
  let qu := s.queue q
  s.setQ q { qu with
    pre := qu.pre.filter (fun x => decide (off x.1 < off v))
    fetchErr := qu.fetchErr.filter (fun x => decide (off x.1 < off v)) }

/-- A write of TAIL (R132). OVERRUN sets FAULT at once, and a discarded write while FAULT is set reports nothing more: the manual
leaves both open (DESIGN CHOICE, log 123). -/
def writeTail (s : State) (q : QId) (v : Nat) : State :=
  let b := qBase q
  let k := s.rd b SEQ_QCTRL.RING_LOG2
  let off := fun n => (n + 2 ^ 32 - s.qHead q) % 2 ^ 32
  if 2 ^ k < off v then
    if s.bit b SEQ_QSTAT.FAULT then s else setFault s q .overrun 0 0x07 0 0 0
  else
    let back := decide (off v < off (s.qTail q))
    let s := s.wr b SEQ_QTAIL.TAIL v
    if back then settleIdle (clipBlock (retract s q v) q) q else s

/-- The ring fetch that the queue makes next (R131, R133): the first command number wanted, the address of its group of
eight slots, and the place of that command in the group. -/
def State.nextFetch (s : State) (q : QId) : Option (Nat × Nat × Nat) :=
  let b := qBase q
  let qu := s.queue q
  let n := (s.qHead q + qu.pre.length) % 2 ^ 32
  let size := 2 ^ s.rd b SEQ_QCTRL.RING_LOG2
  if s.bit b SEQ_QCTRL.EN ∧ n ≠ s.qTail q ∧ qu.pre.length < 128 ∧ qu.fetchErr = none ∧ qu.fetching = none then
    some (n, s.rd b SEQ_QBASE.BASE * 4096 + 32 * (n % size / 8 * 8), n % 8)
  else none

/-- A fetch of eight slots has completed with these bytes: the commands from the first wanted one up to TAIL, at most 128
ahead of HEAD, are held. Of a fetch from host memory TAIL is that of its start: slots that TAIL has passed since are read again
(R133). -/
def deliver (s : State) (q : QId) (n at_ : Nat) (bytes : List Nat) : State :=
  let off := fun m => (m + 2 ^ 32 - s.qHead q) % 2 ^ 32
  let avail := off ((s.queue q).fetching.getD (s.qTail q)) - off n
  let room := 128 - (s.queue q).pre.length
  let cnt := min (8 - at_) (min avail room)
  let new := (List.range cnt).map (fun i =>
    ((n + i) % 2 ^ 32, leNat ((bytes.drop (32 * (at_ + i))).take 32)))
  let qu := s.queue q
  s.setQ q { qu with pre := qu.pre ++ new, fetching := none }

/-- A fetch has failed: the first command that it would have delivered faults (R135). -/
def fetchFailed (s : State) (q : QId) (n status addr : Nat) : State :=
  s.setQ q { s.queue q with fetchErr := some (n, status, addr), fetching := none }

end Sys2Proof.Machine
end

