-- ==== Sys2Proof/Machine/Result.lean ====
section
/-! DEFINITION. What a mailbox command ends with (R459, R510), and the end of a firmware block's fetch (R505). -/

namespace Sys2Proof.Machine

/-! Result codes (R459, R510). -/
def krOk : Nat := 0x00
def krOpcode : Nat := 0x01
def krLen : Nat := 0x02
def krCheck : Nat := 0x05
def krImage : Nat := 0x06
def krState : Nat := 0x07
def krExists : Nat := 0x08
def krNoPart : Nat := 0x09
def krInUse : Nat := 0x0A
def krJdomDup : Nat := 0x0B
def krOpkey : Nat := 0x0C
def krDebug : Nat := 0x0D
def krToken : Nat := 0x0E
def krMeas : Nat := 0x0F
def krFwState : Nat := 0x10
def krFwType : Nat := 0x11
def krFwCrc : Nat := 0x12
def krFwBlockNum : Nat := 0x13
def krFwFetch : Nat := 0x14
def krFwMissing : Nat := 0x15
def krFwSig : Nat := 0x16
def krFwStep : Nat := 0x17
def krFwSvn : Nat := 0x18
def krFwLevel : Nat := 0x19
def krFwDigest : Nat := 0x1A
def krFwFlash : Nat := 0x1B
def krFwDebug : Nat := 0x1C

/-- A command has come to its result: code, detail and output. -/
def mbResult (s : State) (res detail : Nat) (out : List Nat) : State :=
  { s with kn := { s.kn with result := some (res, detail, out) } }

/-- The fetch of a firmware block has ended (R505): the block replaces an earlier copy when its CRC-32C matches. -/
def blockDone (s : State) (i crc status : Nat) (data : List Nat) : State :=
  if status ≠ 0 then mbResult s krFwFetch 0 []
  else if crc32c data ≠ crc then mbResult s krFwCrc 0 []
  else mbResult { s with kn := { s.kn with fwBlocks := tset s.kn.fwBlocks i data } } krOk 0 []

end Sys2Proof.Machine
end

