-- ==== Sys2Proof/Machine/Xfer.lean ====
section
/-! DEFINITION. Transfers: the packets that a device injects (R315 to R319), transfers and their accounting (R332, R333),
MOVE, RCOPY and SIGNAL as data movement (R201 to R206), Retrievers (R204, R171), and device-initiated host accesses (R476
to R479). -/

namespace Sys2Proof.Machine

/-! Packet types of R317. -/
def tRD : Nat := 0x01
def tRDDATA : Nat := 0x02
def tWR : Nat := 0x03
def tACK : Nat := 0x04
def tSYNC : Nat := 0x05
def tRDFWD : Nat := 0x06
def tFWDDATA : Nat := 0x07
def tLOST : Nat := 0x08
def tTELRQ : Nat := 0x20
def tTELRP : Nat := 0x21
def tCREDIT : Nat := 0x30
def tKEYX : Nat := 0x31
def tTIME : Nat := 0x32
def tLSTATE : Nat := 0x33
def tNOTICE : Nat := 0x34

/-- Endpoint ID of a unit of this device. -/
def State.endpoint (s : State) (unit : Nat) : Nat := s.coord * 32 + unit

/-- The data bytes of a packet in body flits of at most 224 (R317). -/
def bodyFlits : Nat → Nat → Nat → List Nat → List Payload
  | 0, _, _, _ => []
  | fuel + 1, vc, k, d =>
    if d.isEmpty then []
    else { vc := vc, fidx := k, tail := decide (d.length ≤ 224), data := d.take 224 } ::
      bodyFlits fuel vc (k + 1) (d.drop 224)

/-- The flits of a packet (R315, R317). -/
def flitsOf (p : Pkt) : List Payload :=
  let vc := 3 * p.cls + (if p.esc then 2 else 0)
  { vc := vc, head := true, tail := p.data.isEmpty, hdr := some { p with data := [] } } :: bodyFlits 40 vc 1 p.data

/-! Credits of the downstream buffers (R321, R326). -/

def vcKey (port vc : Nat) : Nat := 21 * port + vc

def State.usedOf (s : State) (port vc : Nat) : Nat := tgetD s.rte.used (vcKey port vc) 0

/-- Is a VC an escape VC. -/
def isEsc (vc : Nat) : Bool := vc % 3 == 2

/-- Flits of the shared pool that are free. -/
def State.poolFree (s : State) (port : Nat) : Nat :=
  2048 - ((List.range 21).filter (fun v => !(isEsc v))).foldl (fun x v => x + (s.usedOf port v - 8)) 0

/-- Credits for one VC of a port: reserved space, and the shared pool for an adaptive one. -/
def State.credits (s : State) (port vc : Nat) : Nat :=
  if isEsc vc then 72 - s.usedOf port vc else (8 - s.usedOf port vc) + s.poolFree port

/-- Does a packet type carry body flits (R317, R363). -/
def isDataTyp (t : Nat) : Bool := t == tRDDATA || t == tWR || t == tFWDDATA || t == 0x10

/-- Flits of a packet. -/
def pktFlits (h : Pkt) : Nat := if isDataTyp h.typ then 1 + (h.len32 + 6) / 7 else 1

/-- Is there downstream space for the head flit of a packet: a credit, or on an escape VC room for the whole packet, and for 33
flits more unless it moves `along` its axis on escape (R321, R326). -/
def State.headRoom (s : State) (h : Pkt) (port vc : Nat) (along : Bool) : Bool :=
  let free := s.credits port vc
  if isEsc vc then decide (pktFlits h + (if along then 0 else 33) ≤ free) else decide (0 < free)

/-! Injection. -/

/-- The packets that reach a unit of this device wait for it. -/
def eject (s : State) (p : Pkt) : State :=
  { s with rte := { s.rte with ejected := s.rte.ejected ++ [p] } }

/-- Put flits into an input VC of the router (key 21 × port + VC; port 8 injects). -/
def enqueueFlits (s : State) (key : Nat) (l : List Payload) : State :=
  { s with rte := { s.rte with inq := tset s.rte.inq key (tgetD s.rte.inq key [] ++ l) } }

/-- Inject a packet (R323, R316): TIE from the transfer ID, the time of injection, the unit of SRC as where it enters unless it is
given, and its own device as a destination without a link. -/
def inject (s : State) (p : Pkt) : State :=
  let p := { p with tie := p.xfer % 16, itime := s.ns, inPort := if p.inPort = 0 then 8 + p.src % 32 else p.inPort }
  if p.dest / 32 = s.coord then eject s p
  else
    let l := flitsOf p
    enqueueFlits s (21 * 8 + (l.headD {}).vc) l

/-- Does an endpoint ID hold a reserved coordinate or unit code (R6, R7). -/
def badDest (ep : Nat) : Bool :=
  decide (20 < ep % 32) || decide (3 < coordX (ep / 32)) || decide (3 < coordY (ep / 32)) || decide (3 < coordZ (ep / 32))

/-- May partition k exchange packets with other devices (KEYS of R381). -/
def State.keysOn (s : State) (k : Nat) : Bool := bitAt ((s.part k).section_.getD 1 0) 1

/-- The status with which the injecting router refuses a request, or 0 (R7, R381). -/
def State.injectStatus (s : State) (k : Option Nat) (dest : Nat) : Nat :=
  if badDest dest then 4
  else match k with
    | some k => if s.keysOn k then 0 else 3
    | none => 3

/-- A range cut into packets of at most 7,168 bytes: offset and length. -/
def packetCuts : Nat → Nat → Nat → List (Nat × Nat)
  | 0, _, _ => []
  | fuel + 1, off, n => if n = 0 then [] else
      let m := min 7168 n
      (off, m) :: packetCuts fuel (off + m) (n - m)

/-! Completion. -/

/-- A Retriever whose command has ended is free again (R171, R204). -/
def freeRet (s : State) (q : QId) (num : Nat) : State :=
  match s.progOf q num with
  | some p =>
    if p.st = .work ∨ cwOPCODE p.w ≠ opRCOPY then s
    else
      let pk := qPack q
      let n := rcopyRET p.w
      let r := s.ret pk n
      if r.cur = some (q, num) then
        let st := match p.st with
          | .fault _ st _ _ => st
          | _ => 0
        s.setR pk n { r with cur := none, cmd := 0, state := if st = 0 then 0 else 4, status := st, time := s.ns }
      else s
  | none => s

/-- What a transfer, a host access or a local copy of an owner has come to: its status and failing address, and the bytes
for a load. -/
def ownerDone (s : State) (o : Owner) (status bad : Nat) (data : List Nat) : State :=
  match o with
  | .cmd q num _ => freeRet (pieceDone s q num status bad 0) q num
  | .load off n => s.emit (.compl status (if status = 0 then (data.drop off).take n else []))
  | .store => s.emit (.compl status [])
  | .fetch q n at_ => if status = 0 then deliver s q n at_ data else fetchFailed s q n status bad
  | .firmware i crc => blockDone s i crc status data

/-- Count bytes into the Retriever that runs a command. -/
def retBytes (s : State) (o : Owner) (pack n : Nat) : State :=
  match o with
  | .cmd q num _ =>
    match s.progOf q num with
    | some p =>
      if cwOPCODE p.w = opRCOPY then
        let r := s.ret pack (rcopyRET p.w)
        s.setR pack (rcopyRET p.w) { r with bytes := r.bytes + n, total := r.total + n, time := s.ns }
      else s
    | none => s
  | _ => s

/-- The fingerprint stream of one repeat: destination word and bytes (R410, R411), when it goes to HBM. `dcoord` is the
destination's coordinate. -/
def State.fpWord (s : State) (dcoord addr : Nat) : List Nat :=
  let c := s.coord
  let wn := s.rd (lnkBase 0) LNK_COORD.WSIZE + 1
  let d := fun a b n => (a + n - b % n) % n
  let diff := mkCoord (d (coordW dcoord) (coordW c) wn) (d (coordZ dcoord) (coordZ c) 4)
    (d (coordY dcoord) (coordY c) 4) (d (coordX dcoord) (coordX c) 4)
  leBytes 8 (addr % 2 ^ 40 + 2 ^ 40 * diff)

def addFp (s : State) (o : Owner) (dcoord addr : Nat) (data : List Nat) : State :=
  match o with
  | .cmd q num rep =>
    if rowOf (addr % 2 ^ 40) = 0 then
      let w := s.fpWord dcoord addr
      setProg s q num (fun p => { p with fp := tset p.fp rep (w ++ data) })
    else s
  | _ => s

/-- A transfer is over: stores that followed it and follow no other are sent (R230). -/
def releaseHeld (s : State) (id : Nat) : State :=
  let ready := (s.xfers.filter (fun x => x.2.after == [id])).foldr (fun x r => x.2.held ++ r) []
  let s := { s with xfers := s.xfers.map (fun x => (x.1, if x.2.after.contains id then
    let after := x.2.after.filter (fun i => i != id)
    if after.isEmpty then { x.2 with after := [], held := [], t0 := s.clock } else { x.2 with after := after }
    else x.2)) }
  forEach ready s inject

/-- Account bytes of a transfer (R332, R333): the first error stands, and the transfer completes when all are accounted. -/
def account (s : State) (id n status bad : Nat) : State :=
  match tget s.xfers id with
  | none => s
  | some x =>
    let x := { x with acct := x.acct + n, status := firstErr x.status status, bad := if x.status = 0 then bad else x.bad }
    let s := retBytes s x.owner x.pack (if status = 0 then n else 0)
    if x.len ≤ x.acct then
      let s := releaseHeld { s with xfers := tdel s.xfers id } id
      let data := bufBytes x.buf
      let s := match x.owner with
        | .cmd _ _ _ => if x.home ∧ x.status = 0 then addFp s x.owner s.coord x.dst data else s
        | _ => s
      ownerDone s x.owner x.status x.bad data
    else { s with xfers := tset s.xfers id x }

/-- A new transfer. -/
def newXfer (s : State) (x : Xfer) : State × Nat :=
  let id := s.xferNext
  ({ s with xfers := tset s.xfers id { x with t0 := s.clock }, xferNext := (id + 1) % 2 ^ 32 }, id)

/-! Requests to other devices. -/

/-- The stage axis of the queue whose command makes a packet (R386, R390). -/
def State.ownerAxis (s : State) (o : Owner) : Nat :=
  match o with
  | .cmd q _ _ => match s.qPart q with
    | some k => s.rd (shapePBase k) (SHAPE_STAGEAX.AX (s.qStage q))
    | none => 0
  | _ => 0

/-- The source of the mesh requests of a copy: those of a command carry the stage of its queue (R386). -/
def State.ownerSrc (s : State) (o : Owner) (pack : Nat) : Src :=
  match o with
  | .cmd q _ _ => .staged pack (s.qStage q)
  | _ => .unit pack

/-- A read of n bytes at a far endpoint (RD): data come back to `dst`, or to a load. -/
def sendRd (s : State) (pack : Nat) (col dest addr n dst : Nat) (o : Owner) : State :=
  let (s, id) := newXfer s { owner := o, len := n, src := addr, dst := dst, home := true, pack := pack }
  let cuts := packetCuts (n / 7168 + 1) 0 n
  forEach cuts s (fun s c => inject s
    { dest := dest, src := s.endpoint pack, typ := tRD, cls := 0, xfer := id, collar := col, addr := addr + c.1,
      len32 := (c.2 + 31) / 32, axis := s.ownerAxis o, last := c.1 + c.2 == n })

/-- A write of n bytes at a far endpoint (WR). `pieces` are the bytes that the local side delivered, by their place; bytes of
parts that failed there are accounted at once with that status and address (R554). -/
def sendWr (s : State) (pack : Nat) (col dest addr n : Nat) (pieces : Tbl (List Nat)) (st bad : Nat) (o : Owner) : State :=
  let (s, id) := newXfer s { owner := o, len := n, dst := addr, pack := pack }
  let cuts := pieces.foldr (fun d r =>
    (packetCuts (d.2.length / 7168 + 1) 0 d.2.length).map (fun c => (d.1 + c.1, (d.2.drop c.1).take c.2)) ++ r) []
  let lastOff := (cuts.getLastD (0, [])).1
  let s := forEach cuts s (fun s c => inject s
    { dest := dest, src := s.endpoint pack, typ := tWR, cls := 2, xfer := id, collar := col, addr := addr + c.1,
      len32 := (c.2.length + 31) / 32, axis := s.ownerAxis o, last := c.1 == lastOff, data := c.2 })
  let lost := n - (bufBytes pieces).length
  if lost = 0 then s else account s id lost st bad

/-- A read at one far endpoint whose data go to another (RD_FWD, R318). -/
def sendFwd (s : State) (pack : Nat) (col dest addr n fep faddr : Nat) (o : Owner) : State :=
  let home := fep / 32 == s.coord
  let (s, id) := newXfer s { owner := o, len := n, src := addr, dst := faddr, home := home, pack := pack }
  let cuts := packetCuts (n / 7168 + 1) 0 n
  forEach cuts s (fun s c => inject s
    { dest := dest, src := s.endpoint pack, typ := tRDFWD, cls := 0, xfer := id, collar := col, addr := addr + c.1,
      len32 := (c.2 + 31) / 32, axis := s.ownerAxis o, last := c.1 + c.2 == n, fep := fep, faddr := faddr + c.1 })

/-- The endpoint that a board address names (R319): coordinate of its slot, unit by its range. -/
def State.boardEp (s : State) (a : Nat) : Nat :=
  let c := s.coord
  let sl := a / 2 ^ 40
  let la := a % 2 ^ 40
  mkCoord (coordW c) (2 * (coordZ c / 2) + sl / 4) (2 * (coordY c / 2) + sl / 2 % 2) (2 * (coordX c / 2) + sl % 2) * 32 +
    (if rowOf la = 3 then (la - syncCtrBase) / 0x10000 else 20)

/-- Is a board address on another device outside the two ranges that can be reached so (R35). -/
def badBoard (a : Nat) : Bool := !(rowOf (a % 2 ^ 40) == 0 || rowOf (a % 2 ^ 40) == 3)

/-- The Collar that the units of a pack carry (R432, R433). -/
def State.packCollar (s : State) (p : Nat) : Nat :=
  match s.packPart p with
  | some k => s.partCollar k
  | none => 0

/-! MOVE. -/

/-- The bytes that a local side delivered are written on this device: the status of the part that failed first in the order of
its place, and its address (R554). `la` and `bad` are the source address and the source's failing address. -/
def copyLocal (s : State) (c : Src) (u : Option Nat) (la lb st bad : Nat) (pieces : Tbl (List Nat)) : State × Nat × Nat :=
  let (s, st2, bad2) := memWritePieces s c u lb pieces
  if st = 0 then (s, st2, bad2)
  else if st2 ≠ 0 ∧ bad2 - lb < bad - la then (s, st2, bad2)
  else (s, st, bad)

/-- One repeat of a MOVE (R202, R318). -/
def moveRepeat (s : State) (q : QId) (num w i : Nat) : State :=
  let p := qPack q
  let c : Src := .staged p (s.qStage q)
  let n := moveLEN w
  let src := (moveSRC w + i * n) % 2 ^ 43
  let dst := (moveDST w + i * n) % 2 ^ 43
  let own := slotOf s.coord
  let la := src % 2 ^ 40
  let lb := dst % 2 ^ 40
  let o : Owner := .cmd q num i
  let col := s.packCollar p
  let done := fun (s : State) st a => ownerDone s o st a []
  if src / 2 ^ 40 ≠ own ∧ (badBoard src ∨ badRange la n) then done s stBadAddr la
  else if dst / 2 ^ 40 ≠ own ∧ (badBoard dst ∨ badRange lb n) then done s stBadAddr lb
  else if src / 2 ^ 40 = own then
    let bad := s.failAddr c none la n
    let (s, st, pieces) := memParts s c none la n
    let fp := fun (s : State) dc => if st = 0 then addFp s o dc lb (bufBytes pieces) else s
    if dst / 2 ^ 40 = own then
      let (s, st, bad) := copyLocal s c none la lb st bad pieces
      if st ≠ 0 then done s st bad else done (fp s s.coord) 0 0
    else
      let ep := s.boardEp dst
      let ist := s.injectStatus (s.packPart p) ep
      if pieces.isEmpty then done s st bad
      else if ist ≠ 0 then done s ist lb
      else sendWr (fp s (ep / 32)) p col ep lb n pieces st bad o
  else
    let ep := s.boardEp src
    let st := s.injectStatus (s.packPart p) ep
    if st ≠ 0 then done s st la
    else if dst / 2 ^ 40 = own then sendFwd s p col ep la n (s.endpoint (unitOf lb)) lb o
    else
      -- the bytes pass between two other devices: the manual does not say how they reach the fingerprint
      let (v, s) := s.draw
      sendFwd (addFp s o (s.boardEp dst / 32) lb (leBytes n v)) p col ep la n (s.boardEp dst) lb o

/-- The work of a MOVE: every repeat. Without work it is complete at once (R139, R202). -/
def startMove (s : State) (q : QId) (num w : Nat) : State :=
  let r := cwREPEAT w
  if r = 0 ∨ moveLEN w = 0 then setProg s q num (fun p => { p with st := .done, left := 0 })
  else
    let s := setProg s q num (fun p => { p with st := .work, left := 0, pieces := r, err := none, fp := [] })
    forEach (List.range r) s (fun s i => moveRepeat s q num w i)

/-! Host accesses. -/

/-- A device-initiated host access joins the work of its LD (R476). -/
def newHostAcc (s : State) (a : HostAcc) : State :=
  { s with haccs := tset s.haccs s.haccNext a, haccNext := s.haccNext + 1 }

/-- The LD of a pack's partition; 9 when the pack has none. -/
def State.packLd (s : State) (p : Nat) : Nat := (s.packPart p).getD 9

/-! RCOPY and Retrievers. -/

/-- One repeat of an RCOPY (R203, R204). -/
def rcopyRepeat (s : State) (q : QId) (num w i : Nat) : State :=
  let p := qPack q
  let c : Src := .staged p (s.qStage q)
  let n := 32 * rcopyLEN32 w
  let la := rcopyLADDR w + i * n
  let o : Owner := .cmd q num i
  let col := s.packCollar p
  let done := fun (s : State) st a => ownerDone s o st a []
  let readLocal := fun (s : State) =>
    let bad := s.failAddr c none la n
    let (s, st, pieces) := memParts s c none la n
    (s, st, bad, pieces)
  if rcopyHOST w = 1 then
    let ha := (rcopyFARHOST w + i * n) % 2 ^ 64
    if badRange la n then done s stBadAddr la
    else if rcopyDIR w = 0 then
      newHostAcc s { ld := s.packLd p, kind := .read, addr := ha, loc := la, len := n, owner := o, pack := p }
    else
      let (s, st, bad, pieces) := readLocal s
      -- a status that none of the host side can precede (R534)
      if pieces.isEmpty ∧ statusRank st ≤ statusRank stDenied then done s st bad
      else newHostAcc s { ld := s.packLd p, kind := .write, addr := ha, len := n, owner := o, pack := p, parts := pieces,
                          status := st, bad := bad }
  else
    let ep := rcopyFAREP w
    let fa := rcopyFARADDR w + i * n
    if badDest ep then done s 4 fa
    else if badRange fa n ∨ rowOf fa = 3 then done s stBadAddr fa
    else if ep / 32 = s.coord then
      -- the far side is this device: a local access under R204
      let u := some (ep % 32)
      if rcopyDIR w = 0 then
        let bad := s.failAddr c u fa n
        let (s, st, pieces) := memParts s c u fa n
        let part := s.storedBytes c none la pieces
        let (s, st, bad) := copyLocal s c none fa la st bad pieces
        if st ≠ 0 then done (retBytes s o p part) st bad
        else done (retBytes (addFp s o s.coord la (bufBytes pieces)) o p n) 0 0
      else
        let (s, st, bad, pieces) := readLocal s
        let part := s.storedBytes c u fa pieces
        let (s, st, bad) := copyLocal s c u la fa st bad pieces
        if st ≠ 0 then done (retBytes s o p part) st bad
        else done (retBytes (addFp s o s.coord fa (bufBytes pieces)) o p n) 0 0
    else
      let st := s.injectStatus (s.packPart p) ep
      if st ≠ 0 then done s st fa
      else if rcopyDIR w = 0 then sendRd s p col ep fa n la o
      else
        let (s, lst, bad, pieces) := readLocal s
        if pieces.isEmpty then done s lst bad
        else
          let s := if ep % 32 = 20 ∧ lst = 0 then addFp s o (ep / 32) fa (bufBytes pieces) else s
          sendWr s p col ep fa n pieces lst bad o

/-- An RCOPY is given to its Retriever as a new arrival (R204); without work it is complete at once. -/
def giveRcopy (s : State) (q : QId) (num w : Nat) : State :=
  if cwREPEAT w = 0 ∨ rcopyLEN32 w = 0 then setProg s q num (fun p => { p with st := .done, left := 0 })
  else
    let s := setProg s q num (fun p => { p with st := .work, left := cwREPEAT w, pieces := 0, err := none, fp := [] })
    let pk := qPack q
    let n := rcopyRET w
    let r := s.ret pk n
    s.setR pk n { r with waiting := r.waiting ++ [(q, num)] }

/-- A free Retriever takes the next waiting command and copies (R204). A waiting command that is no longer in progress is
dropped. -/
def startRetriever (s : State) (pk n : Nat) : State :=
  let r := s.ret pk n
  if r.cur.isSome ∨ s.bridges ≠ 0 then s
  else
    match r.waiting with
    | [] => s
    | (q, num) :: rest =>
      match s.progOf q num with
      | none => s.setR pk n { r with waiting := rest }
      | some p =>
        if p.st ≠ .work then s.setR pk n { r with waiting := rest }
        else
          let s := s.setR pk n { r with
            waiting := rest, cur := some (q, num), cmd := p.w, state := 1, xfer := s.xferNext, bytes := 0, time := s.ns }
          let s := setProg s q num (fun p => { p with left := 0, pieces := cwREPEAT p.w })
          forEach (List.range (cwREPEAT p.w)) s (fun s i => rcopyRepeat s q num p.w i)

/-! SIGNAL. -/

/-- One repeat of a SIGNAL (R206). -/
def signalRepeat (s : State) (q : QId) (num w i : Nat) : State :=
  let p := qPack q
  let o : Owner := .cmd q num i
  let done := fun (s : State) st a => ownerDone s o st a []
  match signalKIND w with
  | 0 =>
    let ep := signalEP w
    if badDest ep then done s 4 0
    else if 16 ≤ ep % 32 then done s stBadAddr 0
    else if ep / 32 = s.coord then
      if signalN w = 0 then done s 0 0
      else if s.crossFails 0 (srcStop (.unit p)) (srcStop (.unit (ep % 32))) then done s stDevFail 0
      else done (ctrAdd s (ep % 32) (signalIDX w) (if ep % 32 = p then qRank q else ctrMesh) (signalN w)) 0 0
    else
      let st := s.injectStatus (s.packPart p) ep
      if st ≠ 0 then done s st 0
      else
        let (s, id) := newXfer s { owner := o, len := 4, pack := p }
        inject s { dest := ep, src := s.endpoint p, typ := tSYNC, cls := 0, xfer := id, collar := s.packCollar p,
                   axis := s.ownerAxis o, last := true, body := leBytes 2 (signalIDX w) ++ [0, 0] ++ leBytes 4 (signalN w) }
  | 1 => newHostAcc s { ld := s.packLd p, kind := .msix (signalVEC w), len := 4, owner := o, pack := p }
  | _ => newHostAcc s { ld := s.packLd p, kind := .word, addr := signalHADDR w * 4, len := 4, owner := o, pack := p,
                        parts := [(0, leBytes 4 (signalN w))] }

/-- The work of a SIGNAL of which r repeats are left, once every earlier command has retired (R206). -/
def startSignal (s : State) (q : QId) (num w r : Nat) : State :=
  if r = 0 then setProg s q num (fun p => { p with st := .done, left := 0 })
  else
    let s := setProg s q num (fun p => { p with st := .work, left := 0, pieces := r, err := none })
    forEach (List.range r) s (fun s i => signalRepeat s q num w i)

/-! Loads and stores. -/

/-- The bytes of a 32-byte sector that an access of n bytes at a covers, as BMASK (R316). -/
def byteMask (a n : Nat) : Nat := (2 ^ n - 1) * 2 ^ (a % 32)

end Sys2Proof.Machine
end

