-- ==== Sys2Proof/Machine/Cq.lean ====
section
/-! DEFINITION. Issue in CQ: issue blocks (R138 to R145), repeats at exact cycles, the scaled replay (R65, R66, R117 to
R123), and the control commands of every queue (R206 to R211, R557). -/

namespace Sys2Proof.Machine

/-- Does a command begin a new issue block by its opcode (R140). -/
def startsBlock (w : Nat) : Bool :=
  [opWAIT, opSKIPIF, opOVERLAY, opPHASE, opSAVE, opRESTORE].contains (cwOPCODE w)

/-- Does the command after this one begin a new block (R140, R174, R208). -/
def endsBlock (w : Nat) : Bool := cwEND w == 1 || [opSKIPIF, opSAVE, opRESTORE].contains (cwOPCODE w)

/-- The commands of the block that begins at command number n, up to its 64th; none while the end of the block is not
published or not fetched (R141, R144). A failed fetch ends the block before it. -/
def State.blockFrom (s : State) (q : QId) : Nat → Bool → Nat → Option (List Nat)
  | 0, _, _ => some []
  | fuel + 1, first, n =>
    let qu := s.queue q
    if n = s.qTail q then none
    else
      match qu.pre.find? (fun x => x.1 == n) with
      | none => match qu.fetchErr with
        | some (m, _, _) => if m = n then some [] else none
        | none => none
      | some (_, w) =>
        if !first && startsBlock w then some []
        else if endsBlock w then some [w]
        else (s.blockFrom q fuel false ((n + 1) % 2 ^ 32)).map (fun r => w :: r)

/-- How many leading commands of a block may issue: a refused command or one that a break holds ends it (R143, R157). -/
def State.cleanCount (s : State) (q : QId) : Nat → List Nat → Nat
  | _, [] => 0
  | k, w :: r => if s.refuseCode q w = none ∧ !(s.breakAt q w k) then s.cleanCount q (k + 1) r + 1 else 0

/-- Has the first command of a block been released under the rules of its chapter (condition 4 of R141). -/
def State.firstReleased (s : State) (q : QId) (w : Nat) : Bool :=
  let qu := s.queue q
  let op := cwOPCODE w
  if op = opWAIT ∧ cwREPEAT w ≠ 0 then (match qu.wait with
    | some x => x.released
    | none => false)
  else if op = opSKIPIF ∨ op = opSAVE ∨ op = opRESTORE then qu.prog.isEmpty
  else if op = opOVERLAY ∧ cwREPEAT w ≠ 0 then qu.released
  else true

/-- A command that RESUME executes again issues its repeats from cycle s0 on, as the first of a block (R218). SAVE and RESTORE
keep their accesses of R212. -/
def reissue (s : State) (q : QId) (p : Prog) (s0 : Nat) : State :=
  let last := s0 + (cwREPEAT p.w - 1) * gapOf p.w
  let e := if cwOPCODE p.w = opSIGNAL then s0 else last + 2316
  let s := setProg s q p.num (fun p => { p with again := false, due := max last e })
  let qu := s.queue q
  s.setQ q { qu with sNext := last + ngapOf p.w, drain := max qu.drain e }

/-- A new issue block starts (R141): the pipeline reaches the cycle of its first repeat. -/
def startBlock (s : State) (t : Nat) : State :=
  let q : QId := .cq t
  let qu := s.queue q
  let ti := s.tile t
  let waits := match qu.cur with
    | some c => cwOPCODE c.w == opWAIT
    | none => false
  if qu.isOpen || s.held q || qu.skip != 0 || ti.replay.isSome || waits then s
  else
    let again := qu.prog.find? (fun p => p.again)
    let go := fun (cnt : Nat) =>
      -- what acted on scratch before the start acted in an earlier cycle
      let s0 := max (ti.cyc + (if ti.ext.isEmpty then 0 else 1)) (max qu.sNext (qu.drain + 1))
      let s := runTo s t s0
      let s := s.setQ q { s.queue q with isOpen := cnt != 0 || qu.cur.isSome, blk := cnt, sNext := s0 }
      let s := match again with
        | some p => reissue s q p s0
        | none => s
      -- a loaded address program goes on at s_0 + 2 (R164)
      forEach (List.range 3) s (fun s n =>
        let u := s.agUnit t n
        if u.waitBlk then s.setAg t n { u with waitBlk := false, apNext := s0 + 2 } else s)
    -- a command executed again, and the remaining repeats of a stopped or restored one, begin the block (R142, R164, R218)
    match again, qu.cur with
    | none, none =>
      match s.blockFrom q 64 true (s.qHead q) with
      | none => s
      | some l =>
        let n := s.cleanCount q 0 l
        -- HALT and a preemption act after the OVERLAY at which the queue arrived (R399)
        let stop := s.bit (qBase q) SEQ_QCTRL.HALT || s.bit (tileBase t) SEQ_TCTRL.PREEMPT
        let n := if (qu.atSwitch || qu.waitOver) && stop then min 1 n else n
        if n = 0 ∨ !(s.firstReleased q (l.headD 0)) then s else go n
    | _, _ =>
      -- the last command that has issued ends the block, or the block goes on at HEAD (R140, R141)
      if (qu.prog.getLast?.map (fun p => endsBlock p.w)).getD false then go 0
      else match s.blockFrom q 63 false (s.qHead q) with
        | none => s
        | some l => go (s.cleanCount q 0 l)

/-- The command at HEAD of an open block, when its opcode is the one asked for. -/
def State.blockHead (s : State) (t op : Nat) : Option (Nat × Nat) :=
  let q : QId := .cq t
  let qu := s.queue q
  match s.headCmd q with
  | some (num, w) => if qu.isOpen ∧ qu.cur = none ∧ qu.blk ≠ 0 ∧ !(s.held q) ∧ cwOPCODE w = op then some (num, w) else none
  | none => none

/-- May the command being issued go on: its block is open, no replay waits to start, and no preemption has taken effect (R122,
R160). -/
def State.mayIssue (s : State) (t : Nat) (c : Cur) : Bool :=
  let ti := s.tile t
  (s.queue (.cq t)).isOpen && ti.replay.isNone && !ti.preempting && decide (c.rep < cwREPEAT c.w)

/-- The command of an opcode, other than WAIT, that a restore has loaded with repeats left, when they may issue (R164). -/
def State.restCmd (s : State) (t op : Nat) : Option Cur :=
  (s.queue (.cq t)).cur.filter (fun c => cwOPCODE c.w == op && op != opWAIT && s.mayIssue t c)

/-- A command of the block has issued its last repeat: the bound of the next one and the drain cycle (R138, R141). -/
def closeCmd (s : State) (t sNext e : Nat) : State :=
  let q : QId := .cq t
  let qu := s.queue q
  s.setQ q { qu with
    cur := none, sNext := sNext, drain := max qu.drain e, isOpen := qu.isOpen && qu.blk != 0 }

/-- One command of the block begins. -/
def openCmd (s : State) (t num w : Nat) (st : Wk) (due : Nat) : State :=
  let q : QId := .cq t
  let s := beginCmd s q num w st due
  let qu := s.queue q
  s.setQ q { qu with blk := qu.blk - 1 }

/-- Start the address programs that a command's APS names (R153). -/
def startPrograms (s : State) (t w s0 : Nat) : State :=
  forEach (List.range 3) s (fun s n =>
    let u := s.agUnit t n
    if bitAt (cwAPS w) n then s.setAg t n { u with starts := u.starts ++ [s0 + 2] } else s)

/-- A control command of the block issues its repeats: it takes issue cycles and makes no fixed-timing access (R557). Of a WAIT
it is the last repeat, which is the first only when there is no other. -/
def issueControl (s : State) (t num w : Nat) (st : Wk) : State :=
  let s0 := (s.queue (.cq t)).sNext
  let wait := cwOPCODE w == opWAIT
  let reps := if wait then 1 else max 1 (cwREPEAT w)
  let last := s0 + (reps - 1) * gapOf w
  let s := openCmd s t num w st last
  let s := if cwREPEAT w = 0 || wait && cwREPEAT w != 1 then s else startPrograms s t w s0
  closeCmd s t (last + ngapOf w) s0

/-- The remaining repeats of a command that is not a work command, loaded from a save record, issue from cycle sNext on (R164);
its last access is in cycle e of theirs. -/
def issueRest (s : State) (t : Nat) (c : Cur) (st : Wk) (e : Nat → Nat → Nat) : State :=
  let s0 := (s.queue (.cq t)).sNext
  let n := cwREPEAT c.w - c.rep
  let last := s0 + (n - 1) * gapOf c.w
  let s := setProg s (.cq t) c.num (fun p => { p with st := st, due := max last (e s0 last), left := n })
  let s := if c.rep = 0 then startPrograms s t c.w s0 else s
  closeCmd s t (last + ngapOf c.w) (e s0 last)

/-! Work commands. -/

/-- Does the command do no data work (R139, R173). -/
def State.noWork (s : State) (t w : Nat) : Bool :=
  cwREPEAT w == 0 || (isVector w && vecV w == 0) ||
    (agsUsed w).any (fun n => (List.range 4).any (fun k => s.rd (agBase t n) (AG_LOOP.COUNT k) == 0))

/-- What the first repeat of a command sets up in cycle s0: AG positions (R149, R156), kept FIFO entries (R555), the shadow plane
(R65), address programs (R153). The modes are loaded for the next cycle (`loadModes`). -/
def firstRepeat (s : State) (t w s0 : Nat) : State :=
  let s := forEach (agsUsed w) s (fun s n =>
    let m := amOf w n
    let s := s.setAg t n { s.agUnit t n with keeping := isSrp w, kept := [] }
    if cwCONT w = 1 then s
    else if m = 2 then s.setListPos t n 0
    else if m = 1 then s
    else s.setPos t n [0, 0, 0, 0])
  let s := if isSrp w then
      let ti := s.tile t
      let bank := mmaBANK w
      let s := s.setT t { ti with
        shadow := (ti.acc.filter (fun e => e.1 / 12288 == bank)).map (fun e => (e.1 % 12288, e.2)) }
      (s.wr (accBase t) ACC_STAT.SHADOW_BANK bank).wr (accBase t) ACC_STAT.SHADOW_VALID 1
    else s
  startPrograms s t w s0

/-- The replay exponent with which a run of a command computes (R118, R120). -/
def runExp (w run : Nat) : Nat := if isSrp w then run * matK w else 0

/-! Preemption (R160), which takes effect here and is saved in Save.lean. -/

/-- A queue that is preempted leaves its WAIT: its position is at that WAIT and nothing is consumed (R160, R165). A WAIT one of
whose repeats has been released is in progress and goes on. -/
def leaveWait (s : State) (q : QId) : State :=
  match (s.queue q).wait, s.headCmd q with
  | some x, some (_, w) => if x.released ∨ x.left + 1 < cwREPEAT w then s else dropWait s q
  | _, _ => s

/-- CQ leaves its WAIT: between two repeats of it the WAIT is an interrupted command (R161), whose next repeat is the one that
waits. -/
def interruptWait (s : State) (t : Nat) : State :=
  let q : QId := .cq t
  match (s.queue q).wait, s.headCmd q with
  | some x, some (num, w) =>
    let k := cwREPEAT w - x.left - (if x.released then 0 else 1)
    let s := dropWait s q
    if k = 0 then s
    else
      let s := beginCmd s q num w .work 0
      s.setQ q { s.queue q with cur := some { w := w, num := num, rep := k } }
  | _, _ => s

/-- Does a preemption of a tile wait for its CQ: for the OVERLAY at whose switch it has arrived (R399), for the issue of a WAIT
that has been released, or for the hold of a command with SRP (R122). -/
def State.preemptWaits (s : State) (t : Nat) : Bool :=
  let qu := s.queue (.cq t)
  qu.atSwitch ||
    (match qu.wait with
     | some x => x.released && x.left == 0
     | none => false) ||
    (match qu.cur with
     | some c => isSrp c.w
     | none => false)

/-- Step 1 of R160: CQ stops at the repeat boundary, MQ starts nothing more, the address programs stop, those that were to start
in this cycle at word 0. An arrival of MQ at a switch is undone: it arrives again after the restore (R399). -/
def takePreempt (s : State) (t : Nat) : State :=
  let q : QId := .cq t
  let s := if (s.queue q).isOpen then runTo s t (s.queue q).sNext else s
  let s := forEach (List.range 3) s (fun s n =>
    let u := s.agUnit t n
    if u.starts.isEmpty then s else apStart (s.setAg t n { u with starts := [] }) t n (s.tile t).cyc)
  let s := s.setT t { s.tile t with preempting := true }
  let s := leaveWait s (.mq t)
  let s := s.setQ (.mq t) { s.queue (.mq t) with arrived := false }
  let s := interruptWait s t
  let qu := s.queue q
  s.setQ q { qu with
    isOpen := false, blk := 0
    drain := match qu.cur with
      | some c => max qu.drain (drainOf c.w c.s0 (qu.sNext - gapOf c.w) false)
      | none => qu.drain }

/-- A preemption that has been asked for takes effect once nothing keeps it. -/
def preemptSettle (s : State) (t : Nat) : State :=
  let ti := s.tile t
  if s.bit (tileBase t) SEQ_TCTRL.PREEMPT && !ti.preempting && !ti.restoring && !(s.preemptWaits t) then takePreempt s t else s

/-- The end of a scaled-replay command (R119). -/
def endReplays (s : State) (t w runs : Nat) : State :=
  let b := accBase t
  let bank := mmaBANK w
  let s := s.wr b ACC_STAT.LAST_REPLAYS runs
  let s := s.wr (tileBase t) TILE_STAT.REPLAY_ACTIVE 0
  let s := forEach (agsUsed w) s (fun s n => s.setAg t n { s.agUnit t n with keeping := false, kept := [] })
  if runs = 0 then s
  else
    let s := s.wr b (ACC_FLAGS.RPL bank) 1
    let ti := s.tile t
    s.setT t ((List.range (96 * matM w)).foldl (fun ti e =>
      let x := Tile_entry ti bank e
      Tile_setEntry ti bank e { x with flags := x.flags ||| 8#4 }) ti)

/-- The last repeat of a command has issued in cycle sl (R65, R66, R138, R141). -/
def lastRepeat (s : State) (t : Nat) (c : Cur) (sl : Nat) : State :=
  let q : QId := .cq t
  let e := drainOf c.w c.s0 sl false
  let done := fun (s : State) sNext runs =>
    let s := setProg s q c.num (fun p => { p with st := .done, left := 0, due := e, census := { replays := runs } })
    closeCmd s t sNext e
  if isSrp c.w then
    let hold := e + 1
    let s := runTo s t hold
    let infd := (tgetD (s.tile t).cen c.num {}).inf != 0
    if infd && decide (c.run < 2) then
      let ti := s.tile t
      let s := s.setT t { ti with replay := some { hold := hold, runs := c.run + 1 } }
      let qu := s.queue q
      let s := s.setQ q { qu with cur := some { c with rep := cwREPEAT c.w }, drain := max qu.drain e }
      s.wr (tileBase t) TILE_STAT.REPLAY_ACTIVE 1
    else
      preemptSettle (done (endReplays s t c.w c.run) (max hold (sl + ngapOf c.w)) c.run) t
  else done s (sl + ngapOf c.w) 0

/-- One repeat issues in the cycle of its bound (R138). The address programs of a command's APS start in its first run, and not
again in a replay (R66, R153; DESIGN CHOICE, log 146). -/
def issueRepeat (s : State) (t : Nat) (c : Cur) : State :=
  let q : QId := .cq t
  let sc := (s.queue q).sNext
  let s := runTo s t sc
  let first := c.rep == 0
  let s := if first && c.run == 0 then firstRepeat s t c.w sc else s
  let c := if first then
      { c with s0 := sc, pos0 := if c.run = 0 then (List.range 3).map (fun n => s.agPos t n) else c.pos0 } else c
  let last := c.rep + 1 == cwREPEAT c.w
  let ti := s.tile t
  let s := s.setT t { ti with reps := ti.reps ++
    [{ s := sc, w := c.w, num := c.num, r := c.rep, first := first, last := last, d := runExp c.w c.run,
       ix := (List.range 3).map (fun n => s.agPos t n), base := [0, 0, 0], reload := c.reload }] }
  let c := { c with reload := false }
  if last then lastRepeat s t c sc
  else
    let qu := s.queue q
    s.setQ q { qu with cur := some { c with rep := c.rep + 1 }, sNext := sc + gapOf c.w }

/-- Up to n repeats of the work command of an opcode issue in CQ, the command beginning with the first. -/
def issueWork : Nat → State → Nat → Nat → State
  | 0, s, _, _ => s
  | n + 1, s, t, op =>
    match (s.queue (.cq t)).cur with
    | some c =>
      if cwOPCODE c.w = op ∧ s.mayIssue t c then issueWork n (issueRepeat s t c) t op else s
    | none =>
      match s.blockHead t op with
      | none => s
      | some (num, w) =>
        let s0 := (s.queue (.cq t)).sNext
        let s := runTo s t s0
        if s.noWork t w then
          let s := setProg (openCmd s t num w .done s0) (.cq t) num (fun p => { p with idle := true })
          closeCmd s t (s0 + ngapOf w) s0
        else
          let s := openCmd s t num w .work 0
          let c : Cur := { w := w, num := num }
          let qu := s.queue (.cq t)
          issueWork n (issueRepeat (s.setQ (.cq t) { qu with cur := some c }) t c) t op

/-- A scaled replay starts (R66): the bank is restored from the shadow plane in the 96 cycles from the hold cycle, the
repeats run again from the first with the lowered scales, positions and kept entries as the first run found them. -/
def startReplay (s : State) (t : Nat) : State :=
  let q : QId := .cq t
  match (s.tile t).replay, (s.queue q).cur with
  | some r, some c =>
    let s := runTo s t (r.hold + 96)
    let bank := mmaBANK c.w
    let ti := s.tile t
    let other := ti.acc.filter (fun e => e.1 / 12288 != bank)
    let s := s.setT t { ti with
      acc := ti.shadow.foldl (fun m e => tput m (accKey bank e.1) {} e.2) other
      cen := tdel ti.cen c.num, replay := none }
    let s := forEach (agsUsed c.w) s (fun s n =>
      let u := s.agUnit t n
      let s := s.setAg t n { u with fifo := u.kept ++ u.fifo, kept := [] }
      if amOf c.w n = 1 then s else s.setPos t n (c.pos0.getD n [0, 0, 0, 0]))
    let qu := s.queue q
    s.setQ q { qu with cur := some { c with rep := 0, run := r.runs }, sNext := r.hold + 96 }
  | _, _ => s

/-- The oldest command of CQ retires (R147) once its last access has been made: the pipeline runs on to that cycle when no
repeat of an open block is to issue before it. -/
def retireCq (s : State) (t : Nat) : State :=
  let q : QId := .cq t
  let qu := s.queue q
  match qu.prog with
  | p :: _ =>
    if p.st = .done ∨ p.st = .skipped then
      let free := decide (p.due < (s.tile t).cyc) || (!qu.isOpen) || decide (p.due < qu.sNext)
      if free then
        let s := runTo s t (p.due + 1)
        let ti := s.tile t
        let c := cenAdd (tgetD ti.cen p.num {}) p.census
        let s := s.setT t { ti with cen := tdel ti.cen p.num }
        let s := setProg s q p.num (fun p => { p with census := c })
        retireFront s q
      else s
    else s
  | [] => s

/-- The oldest command of a queue retires, or the next command that a SKIP_IF or a RESUME with SKIP passes over
(R147, R208, R166). An OVERLAY of a switch with PHV waits for the close (R404). -/
def retire (s : State) (q : QId) : State :=
  let qu := s.queue q
  match qu.prog with
  | p :: _ =>
    match q with
    | .cq t => retireCq s t
    | _ => if p.st = .done ∨ p.st = .skipped then retireFront s q else s
  | [] =>
    if qu.skip ≠ 0 ∧ s.qHead q ≠ s.qTail q ∧ !(s.stopped q) then retireSkipped s q else s

/-! Control commands in any queue. -/

/-- Issue a control command of an opcode, in an open block of CQ or in another queue: the answer says whether and which, and from
which repeat on. -/
def issueAny (s : State) (q : QId) (op : Nat) (st : Nat → Wk) : State × Option (Nat × Nat) :=
  match q with
  | .cq t =>
    match s.restCmd t op, s.blockHead t op with
    | some c, _ => (issueRest s t c (st c.w) (fun s0 _ => s0), some (c.w, c.rep))
    | none, some (num, w) => (issueControl s t num w (st w), some (w, 0))
    | none, none => (s, none)
  | _ =>
    match s.readyNq q op with
    | some (num, w) => (beginCmd s q num w (st w) 0, some (w, 0))
    | none => (s, none)

/-- NOP (R211), and any command that only passes. -/
def issuePlain (s : State) (q : QId) (op : Nat) : State := (issueAny s q op (fun _ => .done)).1

/-- MARK (R211, R557): one trace record per repeat, with the fabric time of its issue: GAP cycles of 4/7 ns after the one before
(R28; DEDUCED, log 124: the clock is taken as not stretched meanwhile). -/
def issueMark (s : State) (q : QId) : State :=
  match issueAny s q opMARK (fun _ => .done) with
  | (s, some (w, r)) =>
    match s.qPart q with
    | some k => (List.range (cwREPEAT w - r)).foldl (fun s i => markRecord s k q w ((s.time + 4 * i * gapOf w) / 7)) s
    | none => s
  | (s, none) => s

/-- SIGNAL (R206): it issues in its order, and its work begins once every earlier command has retired. -/
def issueSignal (s : State) (q : QId) : State :=
  let due := fun (s : State) => match (s.queue q).prog with
    | p :: _ => if cwOPCODE p.w = opSIGNAL ∧ p.st = Wk.work ∧ p.left ≠ 0 ∧ !p.again then some p else none
    | [] => none
  let s := if (due s).isSome then s else (issueAny s q opSIGNAL (fun w => if cwREPEAT w = 0 then Wk.done else Wk.work)).1
  match due s with
  | some p => startSignal s q p.num p.w p.left
  | none => s

/-- A WAIT that a preemption interrupted between its repeats goes on after the restore: it stands at the head again, and its next
repeat is registered (R160, R164). -/
def resumeWait (s : State) (q : QId) (c : Cur) : State :=
  let s := s.wr (qBase q) SEQ_QHEAD.HEAD c.num
  let qu := s.queue q
  let s := s.setQ q { qu with cur := none, prog := [], pre := (c.num, c.w) :: qu.pre }
  registerWait s q (waitIDX c.w) (waitTHR c.w) (cwREPEAT c.w - 1 - c.rep) (waitCONS c.w == 1)

/-- A preemption of the tile of a queue takes effect if it waited for this (R160). -/
def tileSettle (s : State) (q : QId) : State :=
  match q with
  | .cq t => preemptSettle s t
  | _ => s

/-- WAIT (R207, R231, R557): it is registered at the head of its queue, when every earlier command has issued, and issues once it
is released. Each repeat waits in turn. -/
def issueWait (s : State) (q : QId) : State :=
  let qu := s.queue q
  match qu.cur, s.headCmd q with
  | some c, _ => if cwOPCODE c.w = opWAIT ∧ !(s.held q) then resumeWait s q c else s
  | none, none => s
  | none, some (_, w) =>
    if cwOPCODE w ≠ opWAIT ∨ s.held q ∨ qu.skip ≠ 0 ∨ s.breakAt q w 0 ∨ s.refuseCode q w ≠ none ∨
      s.collWaits q then s
    else if cwREPEAT w = 0 then (issueAny s q opWAIT (fun _ => .done)).1
    else
      match qu.wait with
      | none =>
        if qu.isOpen then s
        else registerWait s q (waitIDX w) (waitTHR w) (cwREPEAT w - 1) (waitCONS w == 1)
      | some x =>
        if !x.released then s
        else if x.left ≠ 0 then
          -- each repeat after the first is registered when the one before it is released; in CQ it begins a new block
          match q with
          | .cq t =>
            if qu.isOpen then
              let s := runTo s t qu.sNext
              let s := if x.left + 1 = cwREPEAT w then startPrograms s t w qu.sNext else s
              let qu := s.queue q
              let s := s.setQ q { qu with isOpen := false, blk := 0, sNext := qu.sNext + gapOf w }
              registerWait s q x.idx (waitTHR w) (x.left - 1) (waitCONS w == 1)
            else s
          | _ => registerWait s q x.idx (waitTHR w) (x.left - 1) (waitCONS w == 1)
        else
          match issueAny s q opWAIT (fun _ => .done) with
          | (s, some _) =>
            let s := passWait s q
            tileSettle (s.setQ q { s.queue q with wait := none }) q
          | (s, none) => s

/-- SKIP_IF (R208): once every earlier command has retired the counter is read at its first repeat (R557), and the next NSKIP
commands are to retire without work. -/
def issueSkipIf (s : State) (q : QId) : State :=
  if (s.queue q).prog.isEmpty || (s.queue q).cur.isSome then
    match issueAny s q opSKIPIF (fun _ => .done) with
    | (s, some (w, r)) =>
      let v := (s.ctr (qPack q) (skipIfIDX w)).val
      let hit := if skipIfZERO w = 1 then v == 0 else v != 0
      if cwREPEAT w != 0 && r == 0 && hit then
        let qu := s.queue q
        s.setQ q { qu with skip := skipIfNSKIP w }
      else s
    | (s, none) => s
  else s

/-- PHASE (R210): it issues in order, and the phase changes at its retirement (R405). -/
def issuePhase (s : State) (q : QId) : State := issuePlain s q opPHASE

/-- MOVE and RCOPY start in their queue (R146, R201, R203). -/
def issueMove (s : State) (q : QId) : State :=
  match s.readyNq q opMOVE with
  | some (num, w) => startMove (beginCmd s q num w .work 0) q num w
  | none => s

def issueRcopy (s : State) (q : QId) : State :=
  match s.readyNq q opRCOPY with
  | some (num, w) => giveRcopy (beginCmd s q num w .work 0) q num w
  | none => s

end Sys2Proof.Machine
end

