-- ==== Sys2Proof/Machine/Save.lean ====
section
/-! DEFINITION. Save records (R161 to R163), the SAVE and RESTORE commands (R212 to R214), preemption and restore of a tile
(R160, R164) and preemption of the pack queues (R165). -/

namespace Sys2Proof.Machine

/-- The bytes of a register of which some fields are given. -/
def packFields (s : State) (n base : Nat) (fs : List Field) : List Nat :=
  leBytes n (fs.foldl (fun x f => x + s.rd base f * 2 ^ f.lo) 0)

/-- Load fields from the little-endian bytes of their register. -/
def loadFields (s : State) (base : Nat) (fs : List Field) (bs : List Nat) : State :=
  forEach fs s (fun s f => s.wr base f (leNat bs / 2 ^ f.lo))

/-- The n bytes at an offset of a record. -/
def slice (bs : List Nat) (off n : Nat) : List Nat := (bs.drop off).take n

/-- Pad with zeros to n bytes. -/
def padTo (n : Nat) (bs : List Nat) : List Nat := bs ++ List.replicate (n - bs.length) 0

/-- The AG registers of R162 in their order from offset 0. -/
def agFields : List (List Field) :=
  [[AG_CTRL.MODE], [AG_BASE.BASE], [AG_SCALE.BASE], [AG_ROW.STRIDE]] ++
    (List.range 4).map (fun k => [AG_LOOP.STRIDE k, AG_LOOP.COUNT k]) ++
    [(List.range 4).map AG_POS.I, [AG_CUR.ADDR]]

def accFlagFields (n : Nat) : List Field :=
  [ACC_FLAGS.NAN n, ACC_FLAGS.OVF n, ACC_FLAGS.SAT n, ACC_FLAGS.RPL n, ACC_FLAGS.COLLIDE n]
def accStatFields : List Field := [ACC_STAT.SHADOW_BANK, ACC_STAT.SHADOW_VALID, ACC_STAT.LAST_REPLAYS]
def accBexpFields : List Field := (List.range 4).map ACC_BEXP.D

/-- The section of AG n (R162). Loop level 0 is the outermost; passes left count the one that runs. -/
def agSection (s : State) (t n : Nat) : List Nat :=
  let b := agBase t n
  let u := s.agUnit t n
  let level := u.fifo.length + u.kept.length
  let lv := u.stack.reverse
  let regs := agFields.foldr (fun fs r => packFields s 8 b fs ++ r) []
  let stat := leBytes 8 (level + s.rd b AG_FIFO_STAT.OVF * 128)
  let fifo := padTo 256 ((u.kept ++ u.fifo).foldr (fun v r => leBytes 4 v ++ r) [])
  let words := (List.range 32).foldr (fun k r => leBytes 4 (s.apWord t n k) ++ r) []
  let rs := (List.range 8).foldr (fun k r => leBytes 4 (s.apReg t n k) ++ r) []
  let st := leBytes 8 (s.rd (apBase t n) SEQ_APSTAT.PC + 256 * s.rd (apBase t n) SEQ_APSTAT.RUN + 512 * lv.length)
  let loops := (List.range 4).foldr (fun j r =>
    let (first, len, left) := lv.getD j (0, 0, 0)
    leBytes 8 (first + 256 * len + 65536 * left) ++ r) []
  padTo 1024 (padTo 0x58 regs ++ padTo 0xA8 stat ++ fifo ++ words ++ rs ++ st ++ loops)

/-- The 16 bytes of an entry (R163). -/
def entryBytes (e : Entry) : List Nat :=
  leBytes 16 (e.total.toNat + 2 ^ 32 * e.chunk.toNat + 2 ^ 64 * e.pos.toNat + 2 ^ 72 * e.ord.toNat + 2 ^ 96 * e.flags.toNat)

def entryOf (bs : List Nat) : Entry :=
  let n := leNat bs
  { total := BitVec.ofNat 32 n, chunk := BitVec.ofNat 32 (n / 2 ^ 32), pos := BitVec.ofNat 6 (n / 2 ^ 64)
    ord := BitVec.ofNat 24 (n / 2 ^ 72), flags := BitVec.ofNat 4 (n / 2 ^ 96) }

/-- The four banks, entry by entry, from a key upward; the table is listed in rising order. -/
def bankBytes : Nat → Nat → Tbl Entry → List Nat
  | 0, _, _ => []
  | n + 1, k, [] => List.replicate 16 0 ++ bankBytes n (k + 1) []
  | n + 1, k, (j, e) :: r =>
    if j = k then entryBytes e ++ bankBytes n (k + 1) r else List.replicate 16 0 ++ bankBytes n (k + 1) ((j, e) :: r)

/-- Entries from the bytes of the banks. -/
def banksOf : Nat → Nat → List Nat → Tbl Entry
  | 0, _, _ => []
  | n + 1, k, bs =>
    let e := entryOf (bs.take 16)
    if e = {} then banksOf n (k + 1) (bs.drop 16) else (k, e) :: banksOf n (k + 1) (bs.drop 16)

/-- The size of a save record (R160). -/
def recordSize : Nat := 790528

/-- The save record of a tile (R161): for a preemption with the interrupted command and its next repeat, if there is
one, and its census record so far, whose command number and time are 0 (R415). -/
def saveRecord (s : State) (t : Nat) (cur : Option Cur) (census : Census) : List Nat :=
  let a := accBase t
  let cq : QId := .cq t
  let mq : QId := .mq t
  let part1 :=
    leBytes 4 1 ++ leBytes 4 (if cur.isSome then 1 else 0) ++ leBytes 8 t ++ leBytes 4 (s.qHead cq) ++
    leBytes 4 (s.qHead mq) ++ leBytes 8 (s.rd (qBase cq) SEQ_QRETIRED.COUNT) ++
    leBytes 8 (s.rd (qBase mq) SEQ_QRETIRED.COUNT) ++
    leBytes 4 (match cur with
      | some c => c.rep
      | none => 0) ++
    packFields s 4 a accBexpFields ++ (List.range 4).foldr (fun n r => packFields s 4 a (accFlagFields n) ++ r) [] ++
    packFields s 4 a accStatFields
  let cmd := match cur with
    | some c => leBytes 32 c.w ++ censusRecord c.w (s.queue cq).phase (qWord cq) 0 0 (s.qStage cq) census
    | none => List.replicate 96 0
  let before := padTo 0x60 part1 ++ cmd ++ List.replicate 0x3C 0
  let after := List.replicate 0x300 0 ++ (List.range 3).foldr (fun n r => agSection s t n ++ r) [] ++
    bankBytes 49152 0 (s.tile t).acc
  let crc := crc32c (before ++ List.replicate 4 0 ++ after)
  before ++ leBytes 4 crc ++ after

/-- Does a record have the format and the CRC of R161. -/
def recordOk (bs : List Nat) : Bool :=
  bs.length == recordSize && leNat (slice bs 0 4) == 1 &&
    crc32c (bs.take 0xFC ++ List.replicate 4 0 ++ bs.drop 0x100) == leNat (slice bs 0xFC 4)

/-- Load the section of AG n. A program that runs goes on at the next block start (R164). -/
def loadAg (s : State) (t n : Nat) (bs : List Nat) : State :=
  let b := agBase t n
  let s := forEach (agFields.zipIdx) s (fun s x => loadFields s b x.1 (slice bs (8 * x.2) 8))
  let stat := leNat (slice bs 0x58 8)
  let s := s.wr b AG_FIFO_STAT.OVF (stat / 128)
  let st := leNat (slice bs 0x2A0 8)
  let run := bitAt st 8
  let depth := min 4 (st / 512 % 8)
  let loops := (List.range depth).map (fun j =>
    let v := leNat (slice bs (0x2A8 + 8 * j) 8)
    (v % 32, v / 256 % 16, v / 65536 % 65536))
  let s := s.setAg t n { s.agUnit t n with
    fifo := (List.range (min 64 (stat % 128))).map (fun k => leNat (slice bs (0x100 + 4 * k) 4) % 2 ^ 22)
    kept := [], keeping := false, starts := [], stack := loops.reverse, waitBlk := run }
  let p := apBase t n
  let s := forEach (List.range 32) s (fun s k => s.wr p (SEQ_APWORD.WORD k) (leNat (slice bs (0x200 + 4 * k) 4)))
  let s := forEach (List.range 8) s (fun s k => s.wr p (SEQ_APREG.VALUE k) (leNat (slice bs (0x280 + 4 * k) 4)))
  (s.wr p SEQ_APSTAT.PC st).wr p SEQ_APSTAT.RUN (if run then 1 else 0)

/-- What RESTORE loads (R214): accumulators, ACC registers, AGs and address programs. -/
def loadRecord (s : State) (t : Nat) (bs : List Nat) : State :=
  let a := accBase t
  let s := loadFields s a accBexpFields (slice bs 0x2C 4)
  let s := forEach (List.range 4) s (fun s n => loadFields s a (accFlagFields n) (slice bs (0x30 + 4 * n) 4))
  let s := loadFields s a accStatFields (slice bs 0x40 4)
  let s := forEach (List.range 3) s (fun s n => loadAg s t n (slice bs (0x400 + 0x400 * n) 1024))
  s.setT t { s.tile t with acc := banksOf 49152 0 (bs.drop 0x1000) }

/-! SAVE and RESTORE. -/

/-- The CQ command of an opcode that has issued and whose work is to begin, as after RESUME (R218). -/
def State.dueAlone (s : State) (t op : Nat) : Option Prog :=
  match (s.queue (.cq t)).prog with
  | p :: _ => if cwOPCODE p.w = op ∧ p.st = Wk.work ∧ p.left ≠ 0 ∧ !p.again then some p else none
  | [] => none

/-- The CQ command of an opcode that issues alone at its block's start, with its address programs (R153), or that runs again
after its fault, or whose remaining repeats issue after a restore. What a RESTORE loads stands over the programs that it has
itself started (DESIGN CHOICE, log 134). -/
def issueAlone (s : State) (t op : Nat) : State × Option Prog :=
  let q : QId := .cq t
  match s.dueAlone t op, s.restCmd t op with
  | some p, _ => (s, some p)
  | none, some c =>
    let s := issueRest (runTo s t (s.queue q).sNext) t c .work (fun _ last => last + 2316)
    (s, s.progOf q c.num)
  | none, none =>
    match s.blockHead t op with
    | none => (s, none)
    | some (num, w) =>
      let s0 := (s.queue q).sNext
      let s := runTo s t s0
      let last := s0 + (cwREPEAT w - 1) * gapOf w
      let e := if cwREPEAT w = 0 then s0 else last + 2316
      let s := openCmd s t num w (if cwREPEAT w = 0 then .done else .work) e
      let s := if cwREPEAT w = 0 then s else startPrograms s t w s0
      let s := closeCmd s t (last + ngapOf w) e
      (s, if cwREPEAT w = 0 then none else s.progOf q num)

/-- The work of one CQ command is complete with a status and an address, or with a fault code of its own. -/
def endAlone (s : State) (t : Nat) (p : Prog) (code status addr : Nat) : State :=
  let q : QId := .cq t
  if code = 0 ∧ status = 0 then setProg s q p.num (fun p => { p with st := .done, left := 0 })
  else
    showFault (setProg s q p.num (fun p => { p with st := .fault code status addr 0, left := 0 })) q

/-- SAVE (R212, R213). -/
def issueSave (s : State) (t : Nat) : State :=
  match issueAlone s t opSAVE with
  | (s, none) => s
  | (s, some p) =>
    let a := saveADDR p.w
    let rcd := saveRecord s t none {}
    let bad := s.failAddr (.unit (packOf t)) none a recordSize
    let (s, st) := memWrite s (.unit (packOf t)) a rcd
    endAlone s t p (if st = 0 then 0 else 0x30) st (if st = 0 then 0 else bad)

/-- A CQ command is taken back to the head of its queue, as not issued. -/
def unissue (s : State) (q : QId) (num w : Nat) : State :=
  let s := s.wr (qBase q) SEQ_QHEAD.HEAD num
  let qu := s.queue q
  s.setQ q { qu with cur := none, prog := qu.prog.filter (fun p => p.num != num), pre := (num, w) :: qu.pre.filter (fun x => x.1 != num) }

/-- RESTORE (R212, R214). A record of another format or with a wrong CRC refuses it at issue (R166, R217). -/
def issueRestore (s : State) (t : Nat) : State :=
  let q : QId := .cq t
  let cmd := match s.dueAlone t opRESTORE, s.restCmd t opRESTORE with
    | some p, _ => some (p.num, p.w)
    | none, some c => some (c.num, c.w)
    | none, none => s.blockHead t opRESTORE
  match cmd with
  | none => s
  | some (num, w) =>
    if cwREPEAT w = 0 then (issueAlone s t opRESTORE).1
    else
      let a := saveADDR w
      let bad := s.failAddr (.unit (packOf t)) none a recordSize
      let (s, st, bs) := memRead s (.unit (packOf t)) a recordSize
      if st = 0 ∧ !(recordOk bs) then setFault (unissue s q num w) q .refused w 0x09 0 0 0
      else
        match issueAlone s t opRESTORE with
        | (s, some p) =>
          if st ≠ 0 then endAlone s t p 0x30 st bad else endAlone (loadRecord s t bs) t p 0 0 0
        | (s, none) => s

/-! Preemption of a tile. -/

/-- A write of SEQ_TCTRL.PREEMPT (R160, R168): the bit is set, and the preemption takes effect once nothing keeps it. -/
def preemptTile (s : State) (t : Nat) : State := preemptSettle (s.wr (tileBase t) SEQ_TCTRL.PREEMPT 1) t

/-- Have the pipeline and MQ of a preempted tile finished (steps 1 and 2 of R160): only an interrupted command is left. -/
def State.saveReady (s : State) (t : Nat) : Bool :=
  let qu := s.queue (.cq t)
  let mq := s.queue (.mq t)
  (s.tile t).preempting && mq.prog.isEmpty && mq.skip == 0 && qu.skip == 0 && !mq.atSwitch && mq.wait.isNone &&
    (match qu.cur with
     | some c => qu.prog.map (fun p => p.num) == [c.num]
     | none => qu.prog.isEmpty)

/-- The census counts of the interrupted command in a record. -/
def recordCensus (bs : List Nat) : Census :=
  let f := fun off n => leNat (slice bs (0x80 + off) n)
  { nan := f 0x10 8, inf := f 0x18 8, sat := f 0x20 4, flush := f 0x24 4
    maxe := if f 0x28 2 = 0x8000 then none else some (sext 16 (f 0x28 2)) }

/-- The positions of a queue from a record. The retired count of a clear queue stands when it is enabled (R157). -/
def loadPosition (s : State) (q : QId) (head retired : Nat) : State :=
  let b := qBase q
  let s := dropFetch (dropWait s q) q
  let s := s.setQ q { s.queue q with
    pre := [], fetchErr := none, prog := [], cur := none, isOpen := false, blk := 0, skip := 0, arrived := false
    released := false, loaded := !(s.bit b SEQ_QCTRL.EN) }
  (s.wr b SEQ_QHEAD.HEAD head).wr b SEQ_QRETIRED.COUNT retired

/-- Steps 1 to 3 of R164. A record that cannot be read counts as a mismatch, which ends the restore. -/
def beginRestore (s : State) (t : Nat) : State :=
  let b := tileBase t
  let q : QId := .cq t
  let (s, st, bs) := memRead s (.unit (packOf t)) (s.rd b SEQ_TSAVE.ADDR * 4096) recordSize
  if st ≠ 0 || !(recordOk bs) then
    let s := (s.wr b SEQ_TCTRL.RESTORE 0).wr b SEQ_TSTAT.REC_ERR 1
    preemptSettle (setFault s q .overrun 0 0x09 0 0 0) t
  else
    let s := s.wr b SEQ_TSTAT.RESTORING 1
    let ti := s.tile t
    let s := s.setT t { ti with restoring := true, reps := [], flight := [], replay := none, cen := [] }
    let s := loadRecord s t bs
    let s := loadPosition s q (leNat (slice bs 0x10 4)) (leNat (slice bs 0x18 8))
    let s := loadPosition s (.mq t) (leNat (slice bs 0x14 4)) (leNat (slice bs 0x20 8))
    if bitAt (leNat (slice bs 4 4)) 0 then
      let w := leNat (slice bs 0x60 32)
      let num := (leNat (slice bs 0x10 4) + 2 ^ 32 - 1) % 2 ^ 32
      let s := s.setQ q { s.queue q with
        prog := [{ num := num, w := w, left := 0 }]
        cur := some { w := w, num := num, rep := leNat (slice bs 0x28 4) % 2 ^ 21, reload := true } }
      s.setT t { s.tile t with cen := [(num, recordCensus bs)] }
    else s

/-- A write of SEQ_TCTRL.RESTORE (R164, R168): the bit is set, and the restore begins once no preemption of the tile is under
way. -/
def tileRestore (s : State) (t : Nat) : State :=
  let b := tileBase t
  if s.bit b SEQ_TCTRL.RESTORE then s
  else
    let s := s.wr b SEQ_TCTRL.RESTORE 1
    if s.bit b SEQ_TCTRL.PREEMPT then s else beginRestore s t

/-- The record of a preempted tile is written (steps 3 and 4 of R160), once the issued repeats have drained. A RESTORE that
waits begins. A record that cannot be written clears PREEMPT too, and both queues show PREEMPTED (R168, R266; DESIGN CHOICE,
log 150). -/
def preemptSaveDone (s : State) (t : Nat) : State :=
  if !(s.saveReady t) then s
  else
    let q : QId := .cq t
    let b := tileBase t
    let s := runTo s t (max (s.tile t).cyc ((s.queue q).drain + 1))
    let qu := s.queue q
    let cen := match qu.cur with
      | some c => tgetD (s.tile t).cen c.num {}
      | none => {}
    let rcd := saveRecord s t qu.cur cen
    let (s, st) := memWrite s (.unit (packOf t)) (s.rd b SEQ_TSAVE.ADDR * 4096) rcd
    let s := s.wr b SEQ_TCTRL.PREEMPT 0
    let ti := s.tile t
    let s := if st ≠ 0 then
        -- the tile stays stopped (R266)
        let s := (s.setT t { ti with preempting := false }).wr b SEQ_TSTAT.REC_ERR 1
        (s.wr (qBase q) SEQ_QSTAT.PREEMPTED 1).wr (qBase (.mq t)) SEQ_QSTAT.PREEMPTED 1
      else
        let s := s.setT t { ti with preempting := false, cen := [] }
        let s := forEach (List.range 3) s (fun s n => apStop s t n false)
        let s := s.setQ q { s.queue q with prog := [], cur := none }
        let s := s.wr b SEQ_TSTAT.SAVED 1
        let s := (s.wr (qBase q) SEQ_QSTAT.PREEMPTED 1).wr (qBase (.mq t)) SEQ_QSTAT.PREEMPTED 1
        raiseEv s .seqSaved (s.packPart (packOf t))
          { qword := qWord q, retired := s.rd (qBase q) SEQ_QRETIRED.COUNT, detail := s.rd b SEQ_TSAVE.ADDR * 4096 }
    if s.bit b SEQ_TCTRL.RESTORE then beginRestore s t else s

/-- A restore completes (step 4 of R164): the remaining repeats of the interrupted command begin a block. A PREEMPT that waits
takes effect. -/
def tileRestoreDone (s : State) (t : Nat) : State :=
  let b := tileBase t
  if !(s.bit b SEQ_TSTAT.RESTORING) then s
  else
    let s := (s.wr b SEQ_TCTRL.RESTORE 0).wr b SEQ_TSTAT.RESTORING 0
    let s := s.wr b SEQ_TSTAT.RESTORED 1
    let s := (s.wr (qBase (.cq t)) SEQ_QSTAT.PREEMPTED 0).wr (qBase (.mq t)) SEQ_QSTAT.PREEMPTED 0
    let s := s.setT t { s.tile t with restoring := false }
    if s.bit b SEQ_TCTRL.PREEMPT then preemptSettle s t
    else if (s.queue (.cq t)).cur.isSome then startBlock s t else s

/-! Preemption of the pack queues. -/

/-- Have GQ and PMQ of a pack stopped: their commands in progress have retired (R165). -/
def State.packStopped (s : State) (p : Nat) : Bool :=
  [QId.gq p, QId.pmq p].all (fun q =>
    (s.queue q).prog.isEmpty && !((s.queue q).atSwitch) && (s.queue q).wait.isNone)

/-- RESUME acts once both queues have stopped (R165). -/
def packGo (s : State) (p : Nat) : State :=
  let b := packBase p
  let s := (s.wr (qBase (.gq p)) SEQ_QSTAT.PREEMPTED 0).wr (qBase (.pmq p)) SEQ_QSTAT.PREEMPTED 0
  s.wr b SEQ_PCTRL.RESUME 0

/-- The end of a preemption of GQ and PMQ, when both have stopped; a RESUME that waits takes effect. -/
def packSettle (s : State) (p : Nat) : State :=
  let b := packBase p
  if s.bit b SEQ_PCTRL.PREEMPT && s.packStopped p then
    let s := s.wr b SEQ_PCTRL.PREEMPT 0
    let s := (s.wr (qBase (.gq p)) SEQ_QSTAT.PREEMPTED 1).wr (qBase (.pmq p)) SEQ_QSTAT.PREEMPTED 1
    if s.bit b SEQ_PCTRL.RESUME then packGo s p else s
  else s

/-- What a queue has done may be what a preemption of its pack's queues waits for (R165). -/
def packSettleOf (s : State) (q : QId) : State :=
  match q with
  | .gq p => packSettle s p
  | .pmq p => packSettle s p
  | _ => s

/-- A write of SEQ_PCTRL.PREEMPT (R165). A wait of which nothing has been released is registered again after the resume. -/
def packPreempt (s : State) (p : Nat) : State :=
  let s := s.wr (packBase p) SEQ_PCTRL.PREEMPT 1
  packSettle (leaveWait (leaveWait s (.gq p)) (.pmq p)) p

/-- A write of SEQ_PCTRL.RESUME (R165): while the queues are still draining it waits. -/
def packResume (s : State) (p : Nat) : State :=
  let b := packBase p
  if s.bit b SEQ_PCTRL.PREEMPT then s.wr b SEQ_PCTRL.RESUME 1
  else packGo s p

end Sys2Proof.Machine
end

