-- ==== Sys2Proof/Machine/Shape.lean ====
section
/-! DEFINITION. Overlays and the switch (12_shape_images.md, R379, R392 to R401), and the readiness of R404. -/

namespace Sys2Proof.Machine

/-! The image header (R379). -/

def imgField (bs : List Nat) (off n : Nat) : Nat := leNat (slice bs off n)
def imgMagic (bs : List Nat) : Nat := imgField bs 0 4
def imgFormat (bs : List Nat) : Nat := imgField bs 4 2
def imgKind (bs : List Nat) : Nat := imgField bs 6 1
def imgGrade (bs : List Nat) : Nat := imgField bs 7 1
def imgLength (bs : List Nat) : Nat := imgField bs 8 4
def imgId (bs : List Nat) : Nat := imgField bs 0xC 4
def imgPart (bs : List Nat) : Nat := imgField bs 0x10 1
def imgOvid (bs : List Nat) : Nat := imgField bs 0x11 1
def imgOflags (bs : List Nat) : Nat := imgField bs 0x12 1
def imgPhid (bs : List Nat) : Nat := imgField bs 0x13 1
def imgCount (bs : List Nat) : Nat := imgField bs 0x14 2

/-- Does the CRC of an image match: over its LENGTH bytes with the field as 0. -/
def imgCrcOk (bs : List Nat) : Bool :=
  crc32c ((bs.take 0x18 ++ [0, 0, 0, 0] ++ bs.drop 0x1C).take (imgLength bs)) == imgField bs 0x18 4

/-- Are the reserved bytes of the header 0. -/
def imgReservedOk (bs : List Nat) : Bool :=
  (slice bs 0x16 2).all (fun b => b == 0) && (slice bs 0x1C 36).all (fun b => b == 0)

/-- The records of an overlay, 32 bytes each. -/
def ovRecords (bs : List Nat) : List (List Nat) :=
  (List.range (imgCount bs)).map (fun i => slice bs (64 + 32 * i) 32)

/-- The tiles that a STAGE record names. -/
def ovTiles (r : List Nat) : List Nat :=
  (List.range 144).filter (fun t => bitAt (r.getD (4 + t / 8) 0) (t % 8))

/-- Are the bytes of a record outside a list 0. -/
def restZero (r : List Nat) (used : List Nat) : Bool :=
  (List.range 32).all (fun i => used.contains i || r.getD i 0 == 0)

/-- Is a record legal in itself (RECORD of R393). -/
def ovRecordOk (r : List Nat) : Bool :=
  let b := fun i => r.getD i 0
  match b 0 with
  | 1 => restZero r [0]
  | 2 => decide (b 1 ≤ 15) && restZero r ([0, 1] ++ (List.range 18).map (· + 4))
  | 3 => decide (b 1 ≤ 15) && decide (b 2 ≤ 15) && decide (b 3 ≤ 5) && restZero r [0, 1, 2, 3]
  | 4 => decide (b 1 ≤ 15) && decide (b 2 ≤ 4) && restZero r [0, 1, 2]
  | 5 => restZero r (List.range 8)
  | _ => false

/-- The first failing check of R393, or 0. -/
def State.overlayError (s : State) (k id : Nat) (bs : List Nat) : Nat :=
  let b := shapePBase k
  let rs := ovRecords bs
  let stages := rs.filter (fun r => r.getD 0 0 == 2)
  let named := stages.foldr (fun r x => ovTiles r ++ x) []
  let grade := imgGrade bs
  let len := imgLength bs
  let bad := fun (c : Bool) (code : Nat) (rest : Nat) => if c then code else rest
  bad (!(imgCrcOk bs)) 1 <|
  bad (imgMagic bs != 0x54485347 || imgFormat bs != 1 || imgKind bs != 3 || len != 64 + 32 * imgCount bs ||
    decide (4096 < len) || !(imgReservedOk bs) || imgOflags bs / 2 != 0 || imgOvid bs != id) 2 <|
  bad (grade != s.ident.grade && grade != 3) 3 <|
  bad (imgId bs != s.rd shapeBase SHAPE_ID.ID) 4 <|
  bad (imgPart bs != k) 5 <|
  bad (named.any (fun t => !(s.tilePresent t) || (grade == 3 && t % 9 == 7))) 6 <|
  bad (named.any (fun t => s.packPart (packOf t) != some k)) 7 <|
  bad (!(rs.all ovRecordOk) || decide (63 < imgPhid bs) ||
    (rs.drop 1).any (fun r => r.getD 0 0 == 1) || decide (1 < (rs.filter (fun r => r.getD 0 0 == 5)).length) ||
    !(named.eraseDups.length == named.length)) 8 <|
  bad (s.bit b SHAPE_OVSTAT.PENDING && s.rd b SHAPE_OVSTAT.PEND_ID == id) 9 0

/-- The end of a load or a drop: LOAD_ERR, LOAD_DONE and, for a load, its event (R393, R394, R403). -/
def overlayResult (s : State) (k err : Nat) : State :=
  (s.wr (shapePBase k) SHAPE_OVSTAT.LOAD_ERR err).wr (shapePBase k) SHAPE_OVSTAT.LOAD_DONE 1

/-- A write of SHAPE_OVCTRL.LOAD (R393): the overlay in the staging window is checked and stored. -/
def overlayLoad (s : State) (k : Nat) : State :=
  let b := shapePBase k
  let id := s.rd b SHAPE_OVCTRL.ID
  let bs := mread s.mem (stagingBase k) 4096
  let err := s.overlayError k id bs
  let s := if err = 0 then
      let p := s.part k
      let s := s.setP k { p with overlays := tset p.overlays id (bs.take (imgLength bs)) }
      s.wr b SHAPE_OVSTAT.HELD (Nat.lor (s.rd b SHAPE_OVSTAT.HELD) (2 ^ id))
    else s
  raiseEv (overlayResult s k err) .shapeLoad (some k) { subj := id, detail := err }

/-- A write of SHAPE_OVCTRL.DROP (R394). -/
def overlayDrop (s : State) (k : Nat) : State :=
  let b := shapePBase k
  let id := s.rd b SHAPE_OVCTRL.ID
  if s.bit b SHAPE_OVSTAT.PENDING && s.rd b SHAPE_OVSTAT.PEND_ID == id then overlayResult s k 9
  else
    let p := s.part k
    let s := s.setP k { p with overlays := tdel p.overlays id }
    let h := s.rd b SHAPE_OVSTAT.HELD
    overlayResult (s.wr b SHAPE_OVSTAT.HELD (if bitAt h id then h - 2 ^ id else h)) k 0

/-- The base mapping (R385). -/
def baseMapping (s : State) (k : Nat) : State :=
  let b := shapePBase k
  let s := forEach (List.range 144) s (fun s t => s.wr b (SHAPE_TSTAGE.ST t) 0)
  let s := forEach (List.range 256) s (fun s i => s.wr b (SHAPE_ROUTE.FORM (i / 16) (i % 16)) 0)
  let s := forEach (List.range 16) s (fun s g => s.wr b (SHAPE_STAGEAX.AX g) 0)
  let sec := (s.part k).section_
  forEach (List.range 7) s (fun s c => s.wr rteBase (RTE_VCW.W k c) (sec.getD (0x0C + c) 0))

/-- One record of an overlay takes effect (R392). -/
def applyRecord (s : State) (k : Nat) (r : List Nat) : State :=
  let b := shapePBase k
  let f := fun i => r.getD i 0
  match f 0 with
  | 1 => baseMapping s k
  | 2 => forEach (ovTiles r) s (fun s t => s.wr b (SHAPE_TSTAGE.ST t) (f 1))
  | 3 => s.wr b (SHAPE_ROUTE.FORM (f 1) (f 2)) (f 3)
  | 4 => s.wr b (SHAPE_STAGEAX.AX (f 1)) (f 2)
  | 5 => forEach (List.range 7) s (fun s c => s.wr rteBase (RTE_VCW.W k c) (f (1 + c)))
  | _ => s

/-- The participating queues of a switch: those with EN set (R395). -/
def State.participants (s : State) (k : Nat) : List QId :=
  (s.partQueues k).filter (fun q => s.bit (qBase q) SEQ_QCTRL.EN)

/-- The switch (R397): the target's records apply, the arrived queues are released, the log entry is written. -/
def runSwitch (s : State) (k : Nat) : State :=
  let b := shapePBase k
  let id := s.rd b SHAPE_OVSTAT.PEND_ID
  let p := s.part k
  let bs := tgetD p.overlays id []
  let qs := s.participants k
  let s := forEach (ovRecords bs) s (fun s r => applyRecord s k r)
  let n := s.rd b SHAPE_OVCOUNT.COUNT + 1
  let s := s.wr b SHAPE_OVCOUNT.COUNT n
  let s := forEach qs s (fun s q => s.setQ q { s.queue q with arrived := false, released := true })
  let phv := imgOflags bs % 2
  let s := if phv = 1 then s.setP k { s.part k with phid := imgPhid bs, barrier := qs, ready := [] } else s
  let i := n % 16
  let s := s.wr b (SHAPE_OVLOG.W i 0) (n + 2 ^ 32 * id + 2 ^ 40 * phv + 2 ^ 48 * imgPhid bs)
  let s := s.wr b (SHAPE_OVLOG.W i 1) p.first
  let s := s.wr b (SHAPE_OVLOG.W i 2) s.ns
  let s := s.wr b (SHAPE_OVLOG.W i 3) s.ns
  let s := (s.wr b SHAPE_OVSTAT.ACTIVE id).wr b SHAPE_OVSTAT.ACTIVE_VALID 1
  let s := (s.wr b SHAPE_OVSTAT.PENDING 0).wr b SHAPE_OVSTAT.PEND_ID 0
  raiseEv s .shapeSwitched (some k) { subj := id, detail := n }

/-- The close of a switch with PHV, once the OVERLAY of every participating queue is ready (R404, R407): the OVERLAY
commands then retire together. -/
def phvClose (s : State) (k : Nat) : State :=
  let p := s.part k
  let s := s.setP k { p with barrier := [], ready := [] }
  let s := closePhases s k (some p.phid) p.barrier
  let s := forEach p.barrier s (fun s q =>
    match (s.queue q).prog with
    | c :: _ =>
      if cwOPCODE c.w = opOVERLAY ∧ c.st = Wk.work then
        packSettleOf (retireFront (setProg s q c.num (fun c => { c with st := .done })) q) q
      else s
    | [] => s)
  phasesClosed s k

/-- A pending switch runs when every participating queue has arrived, and a close when every queue is ready. -/
def switchSettle (s : State) (k : Nat) : State :=
  let p := s.part k
  let s := if s.bit (shapePBase k) SHAPE_OVSTAT.PENDING && (s.participants k).all (fun q => (s.queue q).arrived) then
      runSwitch s k else s
  if !p.barrier.isEmpty && p.barrier.all (fun q => p.ready.contains q) then phvClose s k else s

/-- A queue leaves a switch: it has been disabled or abandoned (R395, R396). -/
def leaveSwitch (s : State) (q : QId) : State :=
  match s.qPart q with
  | none => s
  | some k =>
    let p := s.part k
    let s := s.setQ q { s.queue q with arrived := false, released := false }
    let busy := (s.queue q).prog.any (fun c => cwOPCODE c.w == opOVERLAY && c.st == Wk.work)
    let s := if busy then s else s.setP k { p with barrier := p.barrier.filter (fun x => x != q) }
    switchSettle s k

/-- Has a queue that stands before an OVERLAY done what R395 asks before its arrival. -/
def State.mayArrive (s : State) (q : QId) : Bool :=
  let qu := s.queue q
  match q with
  | .cq _ => !qu.isOpen && qu.cur.isNone
  | .gq _ => !(qu.prog.any (fun p => cwOPCODE p.w == opCOLL && p.st == Wk.work && p.left != 0))
  | _ => qu.prog.isEmpty

/-- A queue arrives at its OVERLAY (R395, R396). -/
def overlayArrival (s : State) (q : QId) : State :=
  let qu := s.queue q
  match s.headCmd q, s.qPart q with
  | some (_, w), some k =>
    if cwOPCODE w ≠ opOVERLAY ∨ cwREPEAT w = 0 ∨ qu.atSwitch ∨ qu.skip ≠ 0 ∨ s.held q ∨ s.breakAt q w 0 ∨
        s.refuseCode q w ≠ none ∨ !(s.mayArrive q) ∨ !((s.part k).barrier.isEmpty) then s
    else
      let s := match q with
        | .cq t => runTo s t (qu.drain + 1)
        | _ => s
      let b := shapePBase k
      let ovl := overlayOVL w
      let pend := s.bit b SHAPE_OVSTAT.PENDING
      if pend && s.rd b SHAPE_OVSTAT.PEND_ID != ovl then
        raiseEv (s.wr b SHAPE_OVSTAT.MISMATCH 1) .shapeOvlMismatch (some k)
          { subj := ovl, detail := s.rd b SHAPE_OVSTAT.PEND_ID }
      else
        let s := if pend then s else
          let s := (s.wr b SHAPE_OVSTAT.PENDING 1).wr b SHAPE_OVSTAT.PEND_ID ovl
          s.setP k { s.part k with first := s.ns }
        switchSettle (s.setQ q { s.queue q with arrived := true }) k
  | _, _ => s

/-- OVERLAY (R209, R397): a released OVERLAY issues; in a switch with PHV it waits for the close (R404). The repeats that a
restore has loaded only pass (R557). -/
def issueOverlay (s : State) (q : QId) : State :=
  if (s.queue q).cur.isSome then (issueAny s q opOVERLAY (fun _ => .done)).1
  else
  match s.headCmd q, s.qPart q with
  | some (_, w), some k =>
    let qu := s.queue q
    if cwREPEAT w ≠ 0 ∧ !qu.released then s
    else
      let st := if cwREPEAT w ≠ 0 ∧ (s.part k).barrier.contains q then Wk.work else Wk.done
      match issueAny s q opOVERLAY (fun _ => st) with
      | (s, some _) => tileSettle (s.setQ q { s.queue q with released := false }) q
      | (s, none) => s
  | _, _ => s

/-- The OVERLAY of a queue becomes ready: it has been released, and every earlier command of the queue has retired
(R404). -/
def overlayReady (s : State) (q : QId) : State :=
  match s.qPart q, (s.queue q).prog with
  | some k, c :: _ =>
    let p := s.part k
    if cwOPCODE c.w = opOVERLAY ∧ c.st = Wk.work ∧ p.barrier.contains q ∧ !(p.ready.contains q) then
      switchSettle (s.setP k { p with ready := p.ready ++ [q] }) k
    else s
  | _, _ => s

end Sys2Proof.Machine
end

