-- ==== Sys2Proof/Machine/Coll.lean ====
section
/-! DEFINITION. Collectives (11_collectives.md): descriptors (R344 to R347), stages and chunks (R348 to R356), contexts and
matching (R357 to R361), the movement of data under credit (R362 to R366), completion and aborts (R367 to R371). -/

namespace Sys2Proof.Machine

/-! The descriptor (R344). -/

def dByte (d : List Nat) (i : Nat) : Nat := d.getD i 0
def dKind (d : List Nat) : Nat := dByte d 0 % 16
def dOp (d : List Nat) : Nat := dByte d 0 / 16 % 4
def dType (d : List Nat) : Nat := dByte d 1 % 16
def dClvl (d : List Nat) : Nat := dByte d 1 / 16
def dGid (d : List Nat) : Nat := leNat (slice d 2 2)
def dMask (d : List Nat) : Nat := dByte d 4 % 16
def dCount (d : List Nat) : Nat := leNat (slice d 0x10 5)
def dSrc (d : List Nat) : Nat := leNat (slice d 0x20 5)
def dDst (d : List Nat) : Nat := leNat (slice d 0x28 5)
def dWblk (d : List Nat) : Nat := dByte d 0x30 % 128
def dWlog (d : List Nat) : Nat := dByte d 0x31 % 8

/-- The low coordinate on an axis: 0 X, 1 Y, 2 Z, 3 W. -/
def dLo (d : List Nat) (a : Nat) : Nat :=
  match a with
  | 0 => dByte d 5 % 4
  | 1 => dByte d 5 / 16 % 4
  | 2 => dByte d 6 % 4
  | _ => leNat (slice d 8 2) % 1024

/-- n_A as the descriptor gives it. -/
def dN (d : List Nat) (a : Nat) : Nat :=
  match a with
  | 0 => dByte d 5 / 4 % 4 + 1
  | 1 => dByte d 5 / 64 % 4 + 1
  | 2 => dByte d 6 / 4 % 4 + 1
  | _ => leNat (slice d 0xA 2) % 1024 + 1

/-- The root index on an axis. -/
def dRoot (d : List Nat) (a : Nat) : Nat :=
  match a with
  | 0 => dByte d 0xC % 4
  | 1 => dByte d 0xC / 4 % 4
  | 2 => dByte d 0xC / 16 % 4
  | _ => leNat (slice d 0xE 2) % 1024

/-- The masked axes, in the order X, Y, Z, W. -/
def dAxes (d : List Nat) : List Nat := (List.range 4).filter (fun a => bitAt (dMask d) a)

/-- The digest (R345). -/
def dDigest (d : List Nat) : Nat := crc32c (d.take 32)

/-- The window size W in bytes. -/
def dWindow (d : List Nat) : Nat := 65536 * 2 ^ dWlog d

/-- The element format; FP32 where the code names none. -/
def dFmt (d : List Nat) : Fmt := (fmtOf (dType d)).getD .fp32

/-- Is the collective a reduction (kinds 0 and 2). -/
def dReduces (d : List Nat) : Bool := dKind d == 0 || dKind d == 2

/-- Does it run as a barrier (R347, R356). -/
def dBarrier (d : List Nat) : Bool := dKind d == 5 || dCount d == 0

/-- Bytes of an input element, and of an output element, which is also what travels (R346, R350). -/
def dInSize (d : List Nat) : Nat := fmtWidth (dFmt d) / 8
def dOutSize (d : List Nat) : Nat := if dReduces d && dInSize d == 1 then 4 else dInSize d

/-- The format of what travels. -/
def dWire (d : List Nat) : Fmt := if dReduces d && dInSize d == 1 then .fp32 else dFmt d

/-! Members (R341). -/

/-- s_A. -/
def State.axisSize (s : State) (a : Nat) : Nat := if a = 3 then s.rd (lnkBase 0) LNK_COORD.WSIZE + 1 else 4

def coordOn (c a : Nat) : Nat :=
  match a with
  | 0 => coordX c
  | 1 => coordY c
  | 2 => coordZ c
  | _ => coordW c

def setCoordOn (c a v : Nat) : Nat :=
  match a with
  | 0 => mkCoord (coordW c) (coordZ c) (coordY c) v
  | 1 => mkCoord (coordW c) (coordZ c) v (coordX c)
  | 2 => mkCoord (coordW c) v (coordY c) (coordX c)
  | _ => mkCoord v (coordZ c) (coordY c) (coordX c)

/-- The index i_A of this device. -/
def State.memberIdx (s : State) (d : List Nat) (a : Nat) : Nat :=
  let n := s.axisSize a
  (coordOn s.coord a + n - dLo d a % n) % n

/-- The coordinate of the member whose index on axis a is j and who stands like this device on the others. -/
def State.memberAt (s : State) (d : List Nat) (a j : Nat) : Nat :=
  setCoordOn s.coord a ((dLo d a + j) % s.axisSize a)

/-- The product of n_A over the masked axes. -/
def dP (d : List Nat) : Nat := (dAxes d).foldl (fun p a => p * dN d a) 1

/-- This device's flat index (R354). -/
def State.flatIdx (s : State) (d : List Nat) : Nat :=
  ((dAxes d).foldr (fun a r => s.memberIdx d a + dN d a * r) 0)

/-- The coordinate of the member with a flat index. -/
def State.flatCoord (s : State) (d : List Nat) (r : Nat) : Nat :=
  ((dAxes d).foldl (fun (x : Nat × Nat) a =>
    (setCoordOn x.1 a ((dLo d a + x.2 % dN d a) % s.axisSize a), x.2 / dN d a)) (s.coord, r)).1

/-! Checks at open (R342, R346, R375). -/

/-- Does a range lie in the partition's HBM or in the pack buffers of its packs. -/
def State.inBuffers (s : State) (k a n : Nat) : Bool :=
  n == 0 || (!(badRange a n) && (rowOf a == 0 || rowOf a == 2) &&
    (partsOf (rowOf a) 200 a n).all (fun p => s.ownerOf p.1 == some k))

def rangesMeet (a n b m : Nat) : Bool := n != 0 && m != 0 && decide (a < b + m) && decide (b < a + n)

/-- Is this device the root of a broadcast (R355). -/
def State.isRoot (s : State) (d : List Nat) : Bool := (dAxes d).all (fun a => s.memberIdx d a == dRoot d a)

/-- Bytes of SRC and of DST (R346). -/
def dSrcBytes (d : List Nat) : Nat := dCount d * dInSize d * (if dKind d = 3 then dP d else 1)
def dDstBytes (d : List Nat) : Nat := dCount d * dOutSize d * (if dKind d = 3 then dP d else 1)

/-- Reserved bits of the shared half. -/
def sharedReserved (d : List Nat) : Bool :=
  dByte d 0 / 64 != 0 || dByte d 4 / 16 != 0 || dByte d 6 / 16 != 0 || dByte d 7 != 0 ||
    leNat (slice d 8 2) / 1024 != 0 || leNat (slice d 0xA 2) / 1024 != 0 || dByte d 0xC / 64 != 0 || dByte d 0xD != 0 ||
    leNat (slice d 0xE 2) / 1024 != 0 || (slice d 0x15 11).any (fun b => b != 0)

/-- Reserved bits of the local half. -/
def localReserved (d : List Nat) : Bool :=
  (slice d 0x25 3).any (fun b => b != 0) || (slice d 0x2D 3).any (fun b => b != 0) || dByte d 0x30 / 128 != 0 ||
    dByte d 0x31 / 8 != 0 || (slice d 0x32 14).any (fun b => b != 0)

/-- Are TYPE and OP legal for the kind (R346). -/
def typeLegal (d : List Nat) : Bool :=
  if dKind d = 5 then dType d == 0 && dOp d == 0 && dCount d == 0
  else if dReduces d then fmtIn (dType d) [.fp32, .bf16, .e4m3, .e5m2]
  else fmtIn (dType d) [.fp32, .bf16, .fp16, .e4m3, .e5m2, .int8] && dOp d == 0

/-- Is the group legal (R342). -/
def State.groupLegal (s : State) (d : List Nat) : Bool :=
  (List.range 4).all (fun a =>
    if bitAt (dMask d) a then
      decide (dN d a ≤ s.axisSize a) && decide (dRoot d a < dN d a) &&
        !(a == 3 && s.bit (lnkBase 0) LNK_COORD.WCHAIN && decide (s.axisSize 3 < dLo d 3 + dN d 3))
    else dLo d a == 0 && dN d a == 1 && dRoot d a == 0)

/-- Are the buffers and the window legal (R346). -/
def State.buffersLegal (s : State) (k pack : Nat) (d : List Nat) : Bool :=
  let src := dSrc d
  let dst := dDst d
  let n := if dKind d = 4 ∧ !(s.isRoot d) then 0 else dSrcBytes d
  let m := dDstBytes d
  let win := packBufBase pack + 65536 * dWblk d
  let w := dWindow d
  !(localReserved d) && (n == 0 || src % 32 == 0) && dst % 32 == 0 && s.inBuffers k src n && s.inBuffers k dst m &&
    !(rangesMeet src n dst m && !(src == dst && dInSize d == dOutSize d)) &&
    decide (dWlog d ≤ 4) && decide (dWblk d + 2 ^ dWlog d ≤ 128) && !(rangesMeet win w src n) && !(rangesMeet win w dst m)

/-- The status with which a descriptor is refused at open (checks 2 and 3 of R358), or 0. -/
def State.openStatus (s : State) (k pack : Nat) (d : List Nat) : Nat :=
  let lvl := s.rd (lnkBase 0) LNK_LEVEL.COLL
  let need := if dKind d = 3 ∨ (dReduces d ∧ dInSize d = 1) then 2 else 1
  if sharedReserved d || decide (5 < dKind d) || dOp d == 3 || !(typeLegal d) || !(s.groupLegal d) then 3
  else if !((dAxes d).all (fun a => decide (s.memberIdx d a < dN d a))) then 4
  else if !(dBarrier d) && !(s.buffersLegal k pack d) then 3
  else if dClvl d != lvl && dClvl d + 1 != lvl then 6
  else if dClvl d < need then 3
  else 0

/-! Stages and chunks (R348, R349). -/

/-- What a stage does. -/
inductive StageKind where
  | red | gat | bcast | a2a | tok
deriving DecidableEq, Repr

/-- The stages of a collective in order, each with its axis. -/
def stagesOf (d : List Nat) : List (StageKind × Nat) :=
  let ax := dAxes d
  if dBarrier d then ax.map (fun a => (.tok, a))
  else match dKind d with
    | 0 => ax.map (fun a => (.red, a))
    | 1 => ax.reverse.map (fun a => (.gat, a))
    | 2 => ax.map (fun a => (.red, a)) ++ ax.reverse.map (fun a => (.gat, a))
    | 3 => [(.a2a, 0)]
    | _ => ax.reverse.map (fun a => (.bcast, a))

/-- Chunk k of a range: first element and length. -/
def chunkOf (first len n k : Nat) : Nat × Nat :=
  let c := (len + n - 1) / n
  let start := min (k * c) len
  (first + start, min c (len - start))

/-- The range of this member before the reduce stage of axis a, and so in its gather stage. -/
def State.rangeAt (s : State) (d : List Nat) (a : Nat) : Nat × Nat :=
  ((dAxes d).filter (fun x => decide (x < a))).foldl
    (fun r x => chunkOf r.1 r.2 (dN d x) (s.memberIdx d x)) (0, dCount d)

/-- The chunk that member i of n sends in ring step t (R351, R352). -/
def sentChunk (k : StageKind) (i n t : Nat) : Nat :=
  match k with
  | .red => (i + 2 * n - t) % n
  | _ => (i + 2 * n - t + 1) % n

/-- The bytes of one ring step's data: padded to 32. -/
def padded (n : Nat) : Nat := (n + 31) / 32 * 32

/-- Position of a stage offset in the order of R363: ring step, offset in the step's data, bytes left in the piece.
`ls` lists the lengths of steps 1, 2, …. -/
def itemAt (ls : List Nat) (half : Nat) : Nat → Nat → Nat → Option (Nat × Nat × Nat)
  | 0, _, _ => none
  | fuel + 1, q, pos =>
    let row := (ls.zipIdx).foldl (fun (x : Nat × Option (Nat × Nat × Nat)) lt =>
      match x.2 with
      | some r => (x.1, some r)
      | none =>
        let len := min half (lt.1 - q * half)
        if x.1 < len then (x.1, some (lt.2 + 1, q * half + x.1, len - x.1)) else (x.1 - len, none)) (pos, none)
    match row.2 with
    | some r => some r
    | none => if ls.all (fun l => decide (l ≤ (q + 1) * half)) then none else itemAt ls half fuel (q + 1) row.1

def itemOf (ls : List Nat) (half pos : Nat) : Option (Nat × Nat × Nat) :=
  itemAt ls half ((ls.foldl max 0) / max 1 half + 1) 0 pos

/-! Arithmetic (R350, R374). -/

/-- P ⊕ v for one element, with its census. -/
def reduceElem (f : Fmt) (op p v : Nat) : Nat × Census :=
  let half := f != .fp32
  let a := if half then p * 65536 else p
  let b := if half then v * 65536 else v
  let r :=
    match op with
    | 0 => if half then (convert .bf16 false .rne (vadd (ofF32 a) (ofF32 b))).code * 65536 else fadd a b
    | 1 => vopLane 0x0C a b 0
    | _ => vopLane 0x0B a b 0
  (if half then r / 65536 else r, cenF32 [a, b] false r)

/-- Elements of a run of bytes. -/
def codesOf (size : Nat) (bs : List Nat) : List Nat :=
  (List.range (bs.length / size)).map (fun i => leNat (slice bs (size * i) size))

def bytesOfCodes (size : Nat) (cs : List Nat) : List Nat := cs.foldr (fun c r => leBytes size c ++ r) []

/-! Access to the contexts. -/

/-- The home pack of a partition (R357). -/
def State.homePack (s : State) (k : Nat) : Nat := (s.partPacks k).headD 0

def State.coll (s : State) (k c : Nat) : Coll := tgetD (s.part k).colls c {}
def State.setColl (s : State) (k c : Nat) (v : Coll) : State :=
  let p := s.part k
  s.setP k { p with colls := tset p.colls c v }

/-- The open context of a pair of group and sequence number. -/
def State.collFor (s : State) (k gid seq : Nat) : Option Nat :=
  (List.range 16).find? (fun c => let x := s.coll k c; x.isOpen && x.gid == gid && x.seq == seq)

/-- The partition of a job domain that may exchange packets. -/
def State.domPart (s : State) (collar : Nat) : Option Nat :=
  (List.range 8).find? (fun k => s.active k && (s.part k).jdom == collar % 2 ^ 28 && s.keysOn k)

/-- The register block of the engine of partition k. -/
def State.engine (s : State) (k : Nat) : Nat := collBase (s.homePack k)

/-- XFER of a collective packet (R365); a control packet carries its sender's own context. -/
def collXfer (ctx stage step seq : Nat) : Nat := ctx + 16 * stage + 256 * (step % 1024) + 2 ^ 18 * (seq % 2 ^ 14)

/-- A collective packet of a context. The injecting router sends none for a partition without KEYS (R381). -/
def collSend (s : State) (x : Coll) (p : Pkt) : State :=
  let axis := s.rd (shapePBase x.part) (SHAPE_STAGEAX.AX (s.qStage x.q))
  if !(s.keysOn x.part) then s
  else inject s { p with src := s.endpoint x.pack, collar := s.partCollar x.part, axis := axis, last := true }

/-- A control packet's body from byte 64 of the head flit: gid, sequence number and digest first. -/
def collHead (gid seq digest : Nat) : List Nat := leBytes 2 gid ++ leBytes 2 seq ++ leBytes 4 digest

def sendReq (s : State) (x : Coll) (c : Nat) (coord : Nat) : State :=
  collSend s x
    { dest := coord * 32 + 19, typ := 0x18, cls := 0, xfer := collXfer c x.stage 0 x.seq,
      body := collHead x.gid x.seq x.digest ++ [x.stage, c, dClvl x.desc, 0] ++ leBytes 4 s.coord }

/-- A grant, or another answer to a request. -/
def grantBody (gid seq digest stage ctx status credit ep : Nat) : List Nat :=
  collHead gid seq digest ++ [stage, ctx, status, 0] ++ leBytes 4 credit ++ leBytes 3 ep

def sendAbort (s : State) (x : Coll) (c coord status a b da db : Nat) : State :=
  collSend s x
    { dest := coord * 32 + 19, typ := 0x1B, cls := 0, xfer := collXfer c x.stage 0 x.seq,
      body := leBytes 2 x.gid ++ leBytes 2 x.seq ++ [status, 0, 0, 0] ++ leBytes 4 a ++ leBytes 4 b ++ leBytes 4 da ++
      leBytes 4 db }

/-! Completion (R367 to R370). -/

/-- The value of COLL_ERR (R377). -/
def State.collErrWord (s : State) (k : Nat) : Nat :=
  let b := s.engine k
  s.rd b COLL_ERR.STATUS + 256 * s.rd b COLL_ERR.CTX + 4096 * s.rd b COLL_ERR.VALID + 65536 * s.rd b COLL_ERR.GID +
    2 ^ 32 * s.rd b COLL_ERR.SEQ

/-- Record the first error completion (R369, R377). -/
def recordErr (s : State) (k c : Nat) (x : Coll) (status a cb da db : Nat) : State :=
  let b := s.engine k
  if s.bit b COLL_ERR.VALID then s
  else
    let s := ((s.wr b COLL_ERR.STATUS status).wr b COLL_ERR.CTX c).wr b COLL_ERR.VALID 1
    let s := (s.wr b COLL_ERR.GID x.gid).wr b COLL_ERR.SEQ x.seq
    let s := (s.wr b COLL_ERRCOORD.COORD_A a).wr b COLL_ERRCOORD.COORD_B cb
    let s := (s.wr b COLL_ERRDIG.DIG_A da).wr b COLL_ERRDIG.DIG_B db
    if s.bit b COLL_CTRL.ERR_EVT then raiseEv s .collError (some k) { subj := c, detail := s.collErrWord k } else s

/-- The bytes of DST that a member wrote (R410): their first address and their number. -/
def State.collWritten (s : State) (d : List Nat) : Nat × Nat :=
  if dBarrier d then (0, 0)
  else if dKind d = 0 then
    match dAxes d with
    | [] => (dDst d, dDstBytes d)
    | a :: _ => let r := chunkOf 0 (dCount d) (dN d a) (s.memberIdx d a)
                (dDst d + r.1 * dOutSize d, r.2 * dOutSize d)
  else (dDst d, dDstBytes d)

/-- The completion status of R533 that corresponds to a collective status (R367). -/
def collStatus (status acc : Nat) : Nat := if status = 7 then 3 else if status = 2 then 6 else if status = 8 then acc else 0

/-- The other members of a group. -/
def State.otherMembers (s : State) (d : List Nat) : List Nat :=
  ((List.range (dP d)).filter (fun r => r != s.flatIdx d)).map (fun r => s.flatCoord d r)

/-- A context completes: its record, its abort to the other members where the status asks for one, and its part in the
command. `abort` is clear when a C_ABORT brought the status. -/
def completeColl (s : State) (k c status acc addr : Nat) (abort : Bool) (a cb da db : Nat) : State :=
  let x := s.coll k c
  if !x.isOpen then s
  else
    let s := s.setColl k c { x with isOpen := false, done := true, status := status, reqs := [], tprog := s.ns }
    let s := if status = 0 then s else recordErr s k c x status a cb da db
    let s := if abort && [1, 2, 7, 8, 9].contains status then
        forEach (s.otherMembers x.desc) s (fun s m => sendAbort s x c m status a cb da db)
      else s
    let s := setProg s x.q x.num (fun p => { p with census := cenAdd p.census x.cen })
    let w := s.collWritten x.desc
    let s := if status = 0 ∧ w.2 ≠ 0 ∧ rowOf w.1 = 0 then
        let word := s.fpWord s.coord w.1
        let data := mread s.mem w.1 w.2
        setProg s x.q x.num (fun p => { p with fp := tset p.fp x.rep (word ++ data) })
      else s
    collDone s x.q x.num x.rep (collStatus status acc) (if status = 8 then addr else 0) status

/-- A member's own error: it names its own coordinate. -/
def failColl (s : State) (k c status acc addr : Nat) : State :=
  completeColl s k c status acc addr true s.coord 0 (s.coll k c).digest 0

/-! Reading and writing the buffers. -/

/-- The bytes that travel for the elements of a chunk from a byte offset: from SRC in the first reduce stage, from DST
otherwise; zeros beyond the chunk. The last components are the access status and address. -/
def State.ownBytes (s : State) (x : Coll) (fromSrc : Bool) (first cnt off len : Nat) : State × List Nat × Nat × Nat :=
  let d := x.desc
  let o := dOutSize d
  let e0 := off / o
  let n := min (len / o) (cnt - e0)
  let size := if fromSrc then dInSize d else o
  let a := (if fromSrc then dSrc d else dDst d) + (first + e0) * size
  let bad := s.failAddr (.unit x.pack) none a (n * size)
  let (s, st, bs) := memRead s (.unit x.pack) a (n * size)
  let bs := if fromSrc && size != o then
      bytesOfCodes 4 ((codesOf size bs).map (fun cd => toF32 (decodeFmt (dFmt d) cd)))
    else bs
  (s, padTo len bs, st, bad)

/-- Write bytes of a chunk to DST; the padding is ignored. -/
def State.putDst (s : State) (x : Coll) (first cnt off : Nat) (bs : List Nat) : State × Nat × Nat :=
  let o := dOutSize x.desc
  let keep := min bs.length (cnt * o - off)
  let a := dDst x.desc + first * o + off
  let bad := s.failAddr (.unit x.pack) none a keep
  let (s, st) := memWrite s (.unit x.pack) a (bs.take keep)
  (s, st, bad)

/-! A stage in progress. -/

/-- The current stage of a context. -/
def collStage (x : Coll) : Option (StageKind × Nat) := (stagesOf x.desc)[x.stage]?

/-- The distance of this member from the root along a broadcast's axis. -/
def State.rootDist (s : State) (d : List Nat) (a : Nat) : Nat :=
  (s.memberIdx d a + dN d a - dRoot d a) % dN d a

/-- Does this member take part in the chain of a broadcast stage (R355). -/
def State.inChain (s : State) (d : List Nat) (a : Nat) : Bool :=
  (dAxes d).all (fun b => !(decide (b < a)) || s.memberIdx d b == dRoot d b)

/-- The lengths of the steps that this member sends (`out`), or receives, in a stage. -/
def State.stepLens (s : State) (x : Coll) (out : Bool) : List Nat :=
  let d := x.desc
  let o := dOutSize d
  match collStage x with
  | some (.red, a) | some (.gat, a) =>
    let n := dN d a
    let i := if out then s.memberIdx d a else (s.memberIdx d a + n - 1) % n
    let r := s.rangeAt d a
    let kd := match collStage x with
      | some (kd, _) => kd
      | none => .red
    (List.range (n - 1)).map (fun t => padded ((chunkOf r.1 r.2 n (sentChunk kd i n (t + 1))).2 * o))
  | some (.bcast, a) =>
    let m := s.rootDist d a
    let has := s.inChain d a && (if out then decide (m + 1 < dN d a) else decide (0 < m))
    if has then [padded (dCount d * o)] else []
  | some (.a2a, _) =>
    if (if out then x.sround else x.rround) < dP d then [padded (dCount d * o)] else []
  | _ => []

/-- The first element and the length of the data of a step, and its chunk or block number. -/
def State.stepRange (s : State) (x : Coll) (out : Bool) (t : Nat) : Nat × Nat × Nat :=
  let d := x.desc
  match collStage x with
  | some (.bcast, _) => (0, dCount d, 0)
  | some (.a2a, _) =>
    let p := dP d
    let r := s.flatIdx d
    let b := if out then (r + x.sround) % p else (r + p - x.rround % p) % p
    (b * dCount d, dCount d, b)
  | some (kd, a) =>
    let n := dN d a
    let i := if out then s.memberIdx d a else (s.memberIdx d a + n - 1) % n
    let r := s.rangeAt d a
    let k := sentChunk kd i n t
    let ch := chunkOf r.1 r.2 n k
    (ch.1, ch.2, k)
  | none => (0, 0, 0)

/-- The member that this one sends to in its stage or round. -/
def State.successor (s : State) (x : Coll) : Nat :=
  let d := x.desc
  match collStage x with
  | some (.a2a, _) => s.flatCoord d ((s.flatIdx d + x.sround) % dP d)
  | some (_, a) => s.memberAt d a ((s.memberIdx d a + 1) % dN d a)
  | none => s.coord

/-- Does this member send in the stage at all: data or tokens. -/
def State.sends (s : State) (x : Coll) : Bool :=
  match collStage x with
  | some (.tok, a) => decide (1 < dN x.desc a)
  | _ => !((s.stepLens x true).all (fun l => l == 0))

def sumLens (l : List Nat) : Nat := l.foldl (· + ·) 0

/-- The bytes received in one run from the consumed position. -/
def contiguous : Nat → Tbl Nat → Nat → Nat
  | 0, _, pos => pos
  | fuel + 1, g, pos =>
    match g.find? (fun e => decide (e.1 ≤ pos) && decide (pos < e.1 + e.2)) with
    | some e => contiguous fuel g (e.1 + e.2)
    | none => pos

/-- Send bytes as C_DATA (R363, R365). -/
def sendData (s : State) (k c : Nat) (x : Coll) (step chunk : Nat) (bs : List Nat) : State :=
  let cls := match collStage x with
    | some (.gat, _) | some (.bcast, _) => 6
    | _ => 5
  let tag := match collStage x with
    | some (.a2a, _) => 0
    | some (.bcast, a) => s.rootDist x.desc a + 1
    | _ => step
  let shown := match collStage x with
    | some (.a2a, _) => x.sround
    | _ => tag
  let s := collSend s x
    { dest := x.snd.ep, typ := 0x10, cls := cls, xfer := collXfer x.snd.ctx x.stage tag x.seq,
      addr := x.snd.sent % 2 ^ 40, len32 := bs.length / 32, data := bs }
  s.setColl k c { x with
    snd := { x.snd with sent := x.snd.sent + bs.length }, tx := x.tx + bs.length, step := shown, chunk := chunk % 65536
    tprog := s.ns }

/-- Return credit for the bytes consumed in the stage (R362, R366). -/
def sendCredit (s : State) (x : Coll) (c total : Nat) : State :=
  collSend s x
    { dest := x.back, typ := 0x1A, cls := 1, xfer := collXfer c x.stage 0 x.seq,
      body := List.replicate 8 0 ++ [x.stage, x.backCtx, 0, 0] ++ leBytes 8 total }

/-- The bytes of the window from a stage offset, modulo its size (R363). -/
def State.winRead (s : State) (x : Coll) (pos n : Nat) : State × List Nat × Nat × Nat :=
  let base := packBufBase x.pack + 65536 * dWblk x.desc
  let o := pos % dWindow x.desc
  let h := min n (dWindow x.desc - o)
  let (s, st1, b1) := memRead s (.unit x.pack) (base + o) h
  let (s, st2, b2) := memRead s (.unit x.pack) base (n - h)
  (s, b1 ++ b2, firstErr st1 st2, base + o)

/-- What of the window may be sent now: the credit that is left. -/
def creditLeft (x : Coll) : Nat := x.snd.credited + x.snd.window - x.snd.sent

/-- Consume n received bytes at item (t, off): fold them with the member's own values in a reduce stage, write them to DST
where the last step or a copy ends there, and forward them where the ring goes on. -/
def consume (s : State) (k c t off n : Nat) (fwd : Bool) : State :=
  let x := s.coll k c
  let d := x.desc
  let (first, cnt, ch) := s.stepRange x false t
  let (s, bs, st, bad) := s.winRead x x.used n
  if st ≠ 0 then failColl s k c 8 st bad
  else
    let red := match collStage x with
      | some (.red, _) => true
      | _ => false
    let o := dOutSize d
    let (s, out, cen, st, bad) :=
      if red then
        let (s, own, st, bad) := s.ownBytes x (x.stage == 0) first cnt off n
        let real := min (n / o) (cnt - off / o)
        let res := ((codesOf o bs).zip (codesOf o own)).map (fun pv => reduceElem (dWire d) (dOp d) pv.1 pv.2)
        let cen := cenSum ((res.take real).map (fun r => if fwd then { r.2 with maxe := none } else r.2))
        (s, padTo n (bytesOfCodes o ((res.take real).map Prod.fst)), cen, st, bad)
      else (s, bs, {}, 0, 0)
    if st ≠ 0 then failColl s k c 8 st bad
    else
      let (s, st, bad) := if red && fwd then (s, 0, 0) else s.putDst x first cnt off out
      if st ≠ 0 then failColl s k c 8 st bad
      else
        let x := { x with used := x.used + n, cen := cenAdd x.cen cen, tprog := s.ns }
        let s := s.setColl k c x
        let s := if fwd then sendData s k c x (t + 1) ch out else s
        sendCredit s x c x.used

/-- Is the data of the next incoming item passed on by this member. -/
def State.forwards (s : State) (x : Coll) (t : Nat) : Bool :=
  match collStage x with
  | some (.red, a) | some (.gat, a) => decide (t + 1 < dN x.desc a)
  | some (.bcast, a) => decide (s.rootDist x.desc a + 1 < dN x.desc a)
  | _ => false

/-- One step of the movement of data: consume what has come, or send what is the member's own. The answer says whether
anything moved. -/
def moveOnce (s : State) (k c : Nat) : State × Bool :=
  let x := s.coll k c
  let inLens := s.stepLens x false
  let outLens := s.stepLens x true
  let halfIn := dWindow x.desc / 2
  let halfOut := x.snd.window / 2
  let avail := contiguous (x.got.length + 1) x.got x.used - x.used
  let outItem := if x.snd.granted then itemOf outLens halfOut x.snd.sent else none
  let inItem := if avail = 0 then none else itemOf inLens halfIn x.used
  let tryIn :=
    match inItem with
    | none => none
    | some (t, off, left) =>
      -- a member folds a piece only once it has arrived in full (R353)
      let red := match collStage x with
        | some (.red, _) => true
        | _ => false
      let n := if red && decide (avail < left) then 0 else min avail (min left 7168)
      if n = 0 then none
      else if s.forwards x t then
        match outItem with
        | some (t', off', left') =>
          let same := match collStage x with
            | some (.bcast, _) => off' == off
            | _ => t' == t + 1 && off' == off
          let n := min n (min left' (creditLeft x))
          if same && n != 0 then some (t, off, n, true) else none
        | none => none
      else some (t, off, n, false)
  match tryIn with
  | some (t, off, n, fwd) => (consume s k c t off n fwd, true)
  | none =>
    match outItem with
    | some (t, off, left) =>
      let own := match collStage x with
        | some (.bcast, a) => s.rootDist x.desc a == 0
        | some (.a2a, _) => true
        | _ => t == 1
      let n := min left (min 7168 (creditLeft x))
      if own && n != 0 then
        let (first, cnt, ch) := s.stepRange x true t
        let fromSrc := match collStage x with
          | some (.red, _) => x.stage == 0
          | some (.a2a, _) => true
          | _ => false
        let (s, bs, st, bad) := s.ownBytes x fromSrc first cnt off n
        if st ≠ 0 then (failColl s k c 8 st bad, true) else (sendData s k c x t ch bs, true)
      else (s, false)
    | none => (s, false)

/-- Move data until nothing more can move. -/
def moveAll : Nat → State → Nat → Nat → State
  | 0, s, _, _ => s
  | n + 1, s, k, c =>
    if (s.coll k c).isOpen then
      let (s, moved) := moveOnce s k c
      if moved then moveAll n s k c else s
    else s

/-- Send the tokens that are due (R356). -/
def sendTokens : Nat → State → Nat → Nat → State
  | 0, s, _, _ => s
  | n + 1, s, k, c =>
    let x := s.coll k c
    match collStage x with
    | some (.tok, a) =>
      if x.snd.granted && decide (x.tokOut + 1 < dN x.desc a) && decide (x.tokOut ≤ x.tokIn) then
        let t := x.tokOut + 1
        let s := collSend s x { dest := x.snd.ep, typ := 0x11, cls := 5, xfer := collXfer x.snd.ctx x.stage t x.seq }
        sendTokens n (s.setColl k c { x with tokOut := t, step := t, tprog := s.ns }) k c
      else s
    | _ => s

/-- Has a member completed its current stage (R356, R362). -/
def State.stageDone (s : State) (x : Coll) : Bool :=
  match collStage x with
  | some (.tok, a) => decide (dN x.desc a ≤ x.tokIn + 1) && decide (dN x.desc a ≤ x.tokOut + 1)
  | some (.a2a, _) => decide (dP x.desc ≤ x.sround) && decide (dP x.desc ≤ x.rround)
  | some _ =>
    let total := sumLens (s.stepLens x true)
    decide (sumLens (s.stepLens x false) ≤ x.used) && decide (total ≤ x.snd.sent) && decide (total ≤ x.snd.credited)
  | none => true

/-- Answer the requests that wait for the stage, or for the round of an all-to-all (R359). -/
def answerReqs (s : State) (k c : Nat) : State :=
  let x := s.coll k c
  let due := fun (m : CollMsg) => decide (m.stage ≤ x.stage) &&
    (match collStage x with
     | some (.a2a, _) =>
       let p := dP x.desc
       m.coord == s.flatCoord x.desc ((s.flatIdx x.desc + p - x.rround % p) % p)
     | _ => true)
  let now := x.reqs.filter due
  let s := s.setColl k c { x with reqs := x.reqs.filter (fun m => !(due m)) }
  forEach now s (fun s m =>
    let x := s.coll k c
    let s := s.setColl k c { x with back := m.ep, backCtx := m.ctx, tprog := s.ns }
    collSend s x
      { dest := m.ep, typ := 0x19, cls := 1, xfer := collXfer c x.stage 0 x.seq,
        body := grantBody x.gid x.seq x.digest m.stage c 0 (dWindow x.desc) (s.endpoint x.pack) })

/-- Ask the next member for credit, when there is something to send. Without KEYS the request completes with DENIED at the
injecting router (R381), and the collective with it (R368). -/
def askCredit (s : State) (k c : Nat) : State :=
  let x := s.coll k c
  if s.sends x && !x.snd.asked then
    if !(s.keysOn k) then failColl s k c 7 0 0
    else
    let s := sendReq s x c (s.successor x)
    let x := s.coll k c
    s.setColl k c { x with snd := { x.snd with asked := true }, tprog := s.ns }
  else s

/-- Go on in a stage after anything has changed: an all-to-all passes from round to round, and the last stage's end
completes the collective. -/
def progress : Nat → State → Nat → Nat → State
  | 0, s, _, _ => s
  | n + 1, s, k, c =>
    let s := moveAll 100000 s k c
    let s := sendTokens 1100 s k c
    let x := s.coll k c
    if !x.isOpen then s
    else
      match collStage x with
      | some (.a2a, _) =>
        let p := dP x.desc
        let len := padded (dCount x.desc * dOutSize x.desc)
        if x.sround < p ∧ len ≤ x.snd.sent ∧ len ≤ x.snd.credited then
          let s := s.setColl k c { x with sround := x.sround + 1, snd := {} }
          progress n (askCredit s k c) k c
        else if x.rround < p ∧ len ≤ x.used then
          let s := s.setColl k c { x with rround := x.rround + 1, used := 0, got := [] }
          progress n (answerReqs s k c) k c
        else if s.stageDone x then completeColl s k c 0 0 0 false 0 0 0 0 else s
      | _ =>
        if s.stageDone x && decide ((stagesOf x.desc).length ≤ x.stage + 1) then completeColl s k c 0 0 0 false 0 0 0 0
        else s

/-- A stage begins (R362): the member's own values where the ring has a single member, then the request for credit and the
answers to requests that wait for this stage. -/
def beginStage (s : State) (k c stage : Nat) : State :=
  let x := s.coll k c
  let s := s.setColl k c { x with
    stage := stage, step := 0, chunk := 0, snd := {}, got := [], used := 0, tokIn := 0, toks := [], tokOut := 0
    sround := 1, rround := 1 }
  progress 4096 (answerReqs (askCredit s k c) k c) k c

/-- STAGE_BEGIN: a member that has completed a stage begins the next (R362). -/
def stageBegin (s : State) (k c : Nat) : State :=
  let x := s.coll k c
  if x.isOpen && s.stageDone x && decide (x.stage + 1 < (stagesOf x.desc).length) then beginStage s k c (x.stage + 1)
  else s

/-! Opening (R357, R358, R360). -/

/-- Is sequence number a earlier than the reference b under R17. -/
def seqBefore (a b : Nat) : Bool := decide (32768 ≤ (a + 65536 - b % 65536) % 65536)

/-- What this member copies locally at open: its shard in an all-gather, the root's input in a broadcast, its own block in
an all-to-all, and in a reduction with a first ring of one member its own input. -/
def localCopy (s : State) (k c : Nat) : State :=
  let x := s.coll k c
  let d := x.desc
  let cnt := dCount d
  let copy := fun (s : State) (first n : Nat) =>
    if n = 0 ∨ (dSrc d = dDst d ∧ dInSize d = dOutSize d) then s
    else
      let (s, bs, st, bad) := s.ownBytes x true first n 0 (n * dOutSize d)
      if st ≠ 0 then failColl s k c 8 st bad
      else
        let (s, st, bad) := s.putDst x first n 0 bs
        if st ≠ 0 then failColl s k c 8 st bad else s
  if dBarrier d then s
  else match dKind d with
    | 1 => let r := s.rangeAt d 4
           copy s r.1 r.2
    | 3 => copy s (s.flatIdx d * cnt) cnt
    | 4 => if s.isRoot d then copy s 0 cnt else s
    | _ => match dAxes d with
      | [] => copy s 0 cnt
      | a :: _ => if dN d a = 1 then copy s 0 cnt else s

/-- A mismatch (R369): the two coordinates and digests; A is the member that detects it. -/
def mismatchGrant (s : State) (x : Coll) (c : Nat) (m : CollMsg) : State :=
  collSend s x
    { dest := m.ep, typ := 0x19, cls := 1, xfer := collXfer c x.stage 0 x.seq,
      body := grantBody x.gid x.seq x.digest m.stage c 2 0 (s.endpoint x.pack) }

/-- A request meets an open context of its pair (step 2 of R359). -/
def matchReq (s : State) (k c : Nat) (m : CollMsg) : State :=
  let x := s.coll k c
  if m.digest ≠ x.digest then
    completeColl (mismatchGrant s x c m) k c 1 0 0 true s.coord m.coord x.digest m.digest
  else
    let s := s.setColl k c { x with reqs := x.reqs ++ [m], tprog := s.ns }
    answerReqs s k c

/-- The requests and aborts held for a context that opens (R359, R370). -/
def takeHeld (s : State) (k c : Nat) : State :=
  let x := s.coll k c
  let p := s.part k
  let mine := p.held.filter (fun m => m.gid == x.gid && m.seq == x.seq)
  let s := s.setP k { p with held := p.held.filter (fun m => !(m.gid == x.gid && m.seq == x.seq)) }
  forEach mine s (fun s m =>
    if !((s.coll k c).isOpen) then s
    else if m.isAbort then completeColl s k c m.status 0 0 false m.coordA m.coordB m.digA m.digB
    else matchReq s k c m)

/-- The held items of a group whose sequence numbers are earlier than that of a context that opens are discarded (R360). -/
def dropStale (s : State) (k gid seq : Nat) : State :=
  let p := s.part k
  let old := fun (m : CollMsg) => m.gid == gid && seqBefore m.seq seq
  let stale := p.held.filter old
  let s := s.setP k { p with held := p.held.filter (fun m => !(old m)) }
  if stale.isEmpty then s else s.bump (s.engine k) COLL_STALE.COUNT COLL_STALE.WRAP stale.length

/-- A context opens for one repeat of a COLL (R357, R358, R360). A descriptor outside the memories that R205 names is read
under the access checks of its address (DESIGN CHOICE, log 152). -/
def openContext (s : State) (k : Nat) (q : QId) (num rep c w : Nat) : State :=
  let pack := qPack q
  let a := collDADDR w + 64 * rep
  let seq := (collSEQ w + rep) % 65536
  let bad := s.failAddr (.unit pack) none a 64
  let (s, st, d) := memRead s (.unit pack) a 64
  let d := if st = 0 then d else []
  let x : Coll := { isOpen := true, q := q, num := num, rep := rep, pack := pack, part := k, daddr := a, desc := d,
                    gid := dGid d, seq := seq, digest := if st = 0 then dDigest d else 0, topen := s.ns, tprog := s.ns }
  let dup := st = 0 ∧ (s.collFor k x.gid seq).isSome
  let s := s.bump (s.engine k) COLL_STARTED.COUNT COLL_STARTED.WRAP 1
  let s := s.setColl k c x
  let refuse := fun (s : State) status acc addr => completeColl s k c status acc addr false s.coord 0 x.digest 0
  if st ≠ 0 then refuse s 8 st bad
  else
    let s := dropStale s k x.gid seq
    let status := s.openStatus k pack d
    if status ≠ 0 then refuse s status 0 0
    else if dup then refuse s 5 0 0
    else
      let s := localCopy s k c
      if !((s.coll k c).isOpen) then s
      else
        let s := takeHeld s k c
        if (s.coll k c).isOpen then
          let reqs := (s.coll k c).reqs
          let s := beginStage s k c 0
          if reqs.isEmpty then s else answerReqs s k c
        else s

/-- COLL (R205): the command issues, and its first repeat asks for a context. -/
def issueColl (s : State) (q : QId) : State :=
  let ask := fun (s : State) num =>
    match s.qPart q with
    | some k => let p := s.part k
                s.setP k { p with copen := p.copen ++ [(q, num, 0)] }
    | none => s
  let asked := fun (num : Nat) => match s.qPart q with
    | some k => (s.part k).copen.any (fun e => e.1 == q && e.2.1 == num)
    | none => true
  match (s.queue q).prog.find? (fun p => cwOPCODE p.w == opCOLL && p.st == Wk.work && p.left == cwREPEAT p.w &&
      p.pieces == 0 && !(asked p.num)) with
  | some p => ask s p.num
  | none =>
    match s.readyNq q opCOLL with
    | none => s
    | some (num, w) =>
      if cwREPEAT w = 0 then beginCmd s q num w .done 0
      else ask (beginCmd s q num w .work 0) num

/-- CONTEXT_OPEN: the oldest waiting repeat of a partition takes the lowest-numbered free context (R357). A repeat of a
command that is no longer in progress is dropped, and so is one that follows a repeat whose collective has failed (R205; DESIGN
CHOICE, log 151). -/
def contextOpen (s : State) (k : Nat) : State :=
  let p := s.part k
  match p.copen with
  | [] => s
  | (q, num, rep) :: rest =>
    match s.progOf q num, (List.range 16).find? (fun c => !((s.coll k c).isOpen)) with
    | none, _ => s.setP k { p with copen := rest }
    | some pr, some c =>
      if pr.st ≠ Wk.work ∨ pr.err ≠ none then s.setP k { p with copen := rest }
      else
        let rest := if rep + 1 < cwREPEAT pr.w then rest ++ [(q, num, rep + 1)] else rest
        let s := s.setP k { p with copen := rest }
        let s := setProg s q num (fun pr => { pr with left := pr.left - 1, pieces := pr.pieces + 1 })
        openContext s k q num rep c pr.w
    | _, none => s

/-! Packets that arrive. -/

/-- The ring-step field in the XFER of a grant that no context sends, which no context has. -/
def noStep : Nat := 1023

/-- C_REQ (R359). The answer carries the Collar of the member that answers; where no partition of the job domain is here, that
of the request, so that it reaches the requester (R364; DESIGN CHOICE, log 117). -/
def recvReq (s : State) (p : Pkt) : State :=
  let b := p.body
  let m : CollMsg :=
    { gid := leNat (slice b 0 2), seq := leNat (slice b 2 2), digest := leNat (slice b 4 4), stage := b.getD 8 0
      ctx := b.getD 9 0, clvl := b.getD 10 0, coord := leNat (slice b 12 4), ep := p.src, collar := p.collar }
  let answer := fun (s : State) pack dest status collar => inject s
    { dest := dest, src := s.endpoint pack, typ := 0x19, cls := 1, collar := collar, last := true
      xfer := collXfer 0 m.stage noStep m.seq, body := grantBody m.gid m.seq 0 m.stage 0 status 0 (s.endpoint pack) }
  match s.domPart p.collar with
  | none => answer s 19 (p.src / 32 * 32 + 19) 3 p.collar
  | some k =>
    match s.collFor k m.gid m.seq with
    | some c => matchReq s k c m
    | none =>
      let pt := s.part k
      if pt.held.length < 64 then s.setP k { pt with held := pt.held ++ [m] }
      else answer (s.bump (s.engine k) COLL_RETRIES.COUNT COLL_RETRIES.WRAP 1) (s.homePack k) p.src 1 (s.partCollar k)

/-- C_GRANT (R359, R362, R369): the context of the pair that is in the granted stage takes the answer. -/
def recvGrant (s : State) (p : Pkt) : State :=
  let b := p.body
  let gid := leNat (slice b 0 2)
  let seq := leNat (slice b 2 2)
  match s.domPart p.collar with
  | none => s
  | some k =>
    match s.collFor k gid seq with
    | none => s
    | some c =>
      let x := s.coll k c
      if x.stage ≠ b.getD 8 0 ∨ !x.snd.asked ∨ x.snd.granted then s
      else
        match b.getD 10 0 with
        | 0 =>
          let snd := { x.snd with granted := true, ctx := b.getD 9 0, window := leNat (slice b 12 4), ep := leNat (slice b 16 3) }
          progress 4096 (s.setColl k c { x with snd := snd, tprog := s.ns }) k c
        | 1 => s.setColl k c { x with snd := { x.snd with retry := true }, tprog := s.ns }
        | 2 => completeColl s k c 1 0 0 true (p.src / 32) s.coord (leNat (slice b 4 4)) x.digest
        | _ => failColl s k c 7 0 0

/-- C_REQ_RETRY: the request is sent again (R359). -/
def reqRetry (s : State) (k c : Nat) : State :=
  let x := s.coll k c
  if x.isOpen && x.snd.retry then
    let s := sendReq s x c (s.successor x)
    s.setColl k c { x with snd := { x.snd with retry := false }, tprog := s.ns }
  else s

/-- The context that a C_DATA, C_TOKEN or C_CREDIT names, when it is open and in the stage of the packet; otherwise the
packet is discarded and counted (R365). -/
def State.collTarget (s : State) (p : Pkt) (ctx stage : Nat) (seqLow : Option Nat) : Option (Nat × Nat) :=
  match s.packPart (p.dest % 32) with
  | none => none
  | some k =>
    let x := s.coll k ctx
    let ok := x.isOpen && x.stage == stage && (s.part k).jdom == p.collar % 2 ^ 28 &&
      (match seqLow with
       | some q => x.seq % 2 ^ 14 == q
       | none => true)
    if ok then some (k, ctx) else none

/-- A discarded packet of a partition's engine. -/
def collDrop (s : State) (p : Pkt) : State :=
  match s.packPart (p.dest % 32) with
  | some k => s.bump (s.engine k) COLL_DROP.COUNT COLL_DROP.WRAP 1
  | none => s

/-- C_DATA (R363, R365): the bytes take their place in the window, and what can move moves. -/
def recvData (s : State) (p : Pkt) : State :=
  match s.collTarget p (p.xfer % 16) (p.xfer / 16 % 16) (some (p.xfer / 2 ^ 18)) with
  | none => collDrop s p
  | some (k, c) =>
    let x := s.coll k c
    let w := dWindow x.desc
    let base := packBufBase x.pack + 65536 * dWblk x.desc
    let n := p.data.length
    let o := p.addr % w
    let head := min n (w - o)
    let (s, st1) := memWrite s (.unit x.pack) (base + o) (p.data.take head)
    let (s, st2) := memWrite s (.unit x.pack) base (p.data.drop head)
    let st := firstErr st1 st2
    if st ≠ 0 then failColl s k c 8 st (base + o)
    else
      let s := s.setColl k c { x with got := tset x.got p.addr n, rx := x.rx + n, tprog := s.ns }
      progress 4096 s k c

/-- The last step up to which the token of every step has come (R356), after step t, among the steps of tokens that have come. -/
def tokRun : Nat → Nat → List Nat → Nat
  | 0, t, _ => t
  | n + 1, t, l => if l.contains (t + 1) then tokRun n (t + 1) l else t

/-- C_TOKEN (R356). -/
def recvToken (s : State) (p : Pkt) : State :=
  match s.collTarget p (p.xfer % 16) (p.xfer / 16 % 16) (some (p.xfer / 2 ^ 18)) with
  | none => collDrop s p
  | some (k, c) =>
    let x := s.coll k c
    let t := p.xfer / 256 % 1024
    let all := x.toks ++ [t]
    let n := tokRun all.length x.tokIn all
    progress 4096 (s.setColl k c { x with tokIn := n, toks := all.filter (fun i => decide (n < i)), tprog := s.ns }) k c

/-- C_CREDIT (R362, R366). -/
def recvCredit (s : State) (p : Pkt) : State :=
  match s.collTarget p (p.body.getD 9 0 % 16) (p.body.getD 8 0) none with
  | none => s
  | some (k, c) =>
    let x := s.coll k c
    let total := leNat (slice p.body 12 8)
    progress 4096 (s.setColl k c { x with snd := { x.snd with credited := max x.snd.credited total }, tprog := s.ns }) k c

/-- C_ABORT (R370). -/
def recvAbort (s : State) (p : Pkt) : State :=
  let b := p.body
  let m : CollMsg :=
    { isAbort := true, gid := leNat (slice b 0 2), seq := leNat (slice b 2 2), status := b.getD 4 0
      coordA := leNat (slice b 8 4), coordB := leNat (slice b 12 4), digA := leNat (slice b 16 4)
      digB := leNat (slice b 20 4), collar := p.collar }
  match s.domPart p.collar with
  | none => s
  | some k =>
    match s.collFor k m.gid m.seq with
    | some c => completeColl s k c m.status 0 0 false m.coordA m.coordB m.digA m.digB
    | none =>
      let pt := s.part k
      if pt.held.length < 64 then s.setP k { pt with held := pt.held ++ [m] }
      else s.bump (s.engine k) COLL_DROP.COUNT COLL_DROP.WRAP 1

/-- A packet of a collective was accounted by LOST (R372): the sender's context completes with LINK_LOST. -/
def collLost (s : State) (p : Pkt) (typ : Nat) : State :=
  match s.domPart p.collar with
  | none => s
  | some k =>
    let ctx := p.xfer % 16
    let stage := p.xfer / 16 % 16
    let low := p.xfer / 2 ^ 18
    let hit := (List.range 16).find? (fun c =>
      let x := s.coll k c
      x.isOpen && s.endpoint x.pack == p.dest && x.seq % 2 ^ 14 == low &&
        (if typ = 0x10 ∨ typ = 0x11 then
           x.snd.granted && x.snd.ep == leNat (slice p.body 5 3) && x.snd.ctx == ctx && x.stage == stage
         else c == ctx && p.xfer / 256 % 1024 != noStep))
    match hit with
    | some c => failColl s k c 2 0 0
    | none => s

/-- A write of COLL_CTRL.ABORT by the partition's host (R368, R377). -/
def collAbort (s : State) (k mask : Nat) : State :=
  forEach ((List.range 16).filter (fun c => bitAt mask c)) s (fun s c => failColl s k c 9 0 0)

end Sys2Proof.Machine
end

