-- ==== Sys2Proof/Machine/Howl.lean ====
section
/-! DEFINITION. What the status registers of queues, Leashes and Retrievers show (R167, R171, R236), Leashes (R236 to R239)
and the Howl (R240 to R248). -/

namespace Sys2Proof.Machine

/-! Views. -/

/-- SEQ_QSTAT.HALTED: HALT is set, and everything that the queue had started has retired. -/
def State.qHalted (s : State) (q : QId) : Bool :=
  s.bit (qBase q) SEQ_QCTRL.HALT && (s.queue q).prog.isEmpty && !((s.queue q).atSwitch)

/-- SEQ_QSTAT.WAITING: held at a block start or at a WAIT. -/
def State.qWaiting (s : State) (q : QId) : Bool :=
  let qu := s.queue q
  (match qu.wait with
   | some w => !w.released
   | none => false) ||
  (match q with
   | .cq _ => !qu.isOpen && s.qHead q != s.qTail q && !(s.held q)
   | _ => qu.atSwitch)

/-- SEQ_QSTAT.REPEAT_IDX: the next repeat of the command that is being issued, of a WAIT the one that waits (R557). -/
def State.qRepeat (s : State) (q : QId) : Nat :=
  match (s.queue q).cur, (s.queue q).wait, s.headCmd q with
  | some c, _, _ => c.rep
  | none, some x, some (_, w) => cwREPEAT w - 1 - x.left
  | none, _, _ =>
    match (s.queue q).prog.find? (fun p => cwOPCODE p.w == opCOLL && p.st == Wk.work && p.left != 0) with
    | some p => cwREPEAT p.w - p.left
    | none => 0

def b2n (b : Bool) : Nat := if b then 1 else 0

/-- The whole of SEQ_QSTAT. -/
def State.qstatWord (s : State) (q : QId) : Nat :=
  let b := qBase q
  b2n (s.qIdle q) + 2 * b2n (s.qWaiting q) + 4 * b2n (s.qHalted q) + 8 * s.rd b SEQ_QSTAT.BREAK +
    16 * s.rd b SEQ_QSTAT.FAULT + 32 * s.rd b SEQ_QSTAT.PREEMPTED + 256 * s.rd b SEQ_QSTAT.FAULT_CODE +
    65536 * s.rd b SEQ_QSTAT.TAG + 2 ^ 32 * s.qRepeat q

/-- Is a queue held by its fault: it is shown, and of the commands that the queue had started none is in progress any more
before the faulted one or behind it; a command stopped between its repeats does not count (R218, R236). -/
def State.faultHolds (s : State) (q : QId) : Bool :=
  let qu := s.queue q
  let still := fun (p : Prog) => match qu.cur with
    | some c => !qu.isOpen && c.num == p.num
    | none => false
  s.bit (qBase q) SEQ_QSTAT.FAULT && qu.prog.all (fun p => p.st != .work || still p) &&
    (match qu.prog with
     | p :: _ => p.faulted || still p
     | [] => true)

/-- Does the Leash of a queue count (R236). -/
def State.leashRuns (s : State) (q : QId) : Bool :=
  let b := qBase q
  let qu := s.queue q
  s.bit b SEQ_QLEASH.EN && qu.armed && s.bit b SEQ_QCTRL.EN && (s.qHead q != s.qTail q || !qu.prog.isEmpty) &&
    !(s.bit b SEQ_QSTAT.BREAK) && !(s.faultHolds q) && !(s.qHalted q) && !(s.bit b SEQ_QSTAT.PREEMPTED)

/-! The Howl. -/

/-- The first byte of slot number n of a partition's Howl region (R241). -/
def State.howlSlot (s : State) (k n : Nat) : Nat :=
  ((s.partStacks k).headD 0 + 1) * 2 ^ 36 - 0x400000 + n % 4 * 0x100000

/-- A trigger of a Howl (R240): a Howl that is being written only counts it. `cause` and `writer` are those of R244. The format
word is written first, and its failure is kept (R242, R266). -/
def startHowl (s : State) (k cause writer qw : Nat) : State :=
  let p := s.part k
  match p.howl with
  | some _ => s.setP k { p with howlMore := p.howlMore + 1 }
  | none =>
    let (s, st) := memWrite s .kennel (s.howlSlot k (p.howls + 1)) [0, 0, 0, 0]
    s.setP k { s.part k with howl := some (cause + 256 * writer, qw, s.ns, st != 0), howlMore := 0 }

/-- A queue record (R245). -/
def State.howlQueue (s : State) (q : QId) : List Nat :=
  let b := qBase q
  let qu := s.queue q
  let word := qWord q
  let w := match s.headCmd q with
    | some (_, w) => w
    | none => 0
  let (r1, r2, r3) := match qu.wait with
    | some x => if x.released then (0, 0, qu.lastRetire) else
        (x.idx + 2 ^ 15 * b2n x.cons + 2 ^ 16, x.thr, x.time)
    | none => (0, 0, qu.lastRetire)
  padTo 128 ([word % 256, qPack q, qKind q, b2n (s.leashRuns q) + 2 * s.rd b SEQ_QLSTAT.FIRED] ++
    leBytes 4 (s.rd b SEQ_QLSTAT.ELAPSED) ++ leBytes 8 (s.qstatWord q) ++ leBytes 4 (s.qHead q) ++ leBytes 4 (s.qTail q) ++
    leBytes 8 (s.rd b SEQ_QRETIRED.COUNT) ++ leBytes 32 w ++ leBytes 4 r1 ++ leBytes 4 r2 ++ leBytes 8 r3)

/-- The STEP field of a context (R377). -/
def collStepField (x : Coll) : Nat := x.stage % 16 + 16 * (x.step % 1024)

/-- A context record (R246). -/
def State.howlColl (s : State) (k c : Nat) : List Nat :=
  let x := s.coll k c
  padTo 256 (padTo 64 x.desc ++ leBytes 2 x.seq ++ [if x.done then x.status else 0, b2n x.isOpen + 2 * b2n x.done] ++
    leBytes 4 x.digest ++ leBytes 8 x.rx ++ leBytes 8 x.tx ++ leBytes 2 (collStepField x) ++ leBytes 2 x.chunk ++
    [x.pack, 0, 0, 0] ++ leBytes 8 x.topen ++ leBytes 8 x.tprog)

/-- A Retriever record (R247). -/
def retRecord (pack idx state xfer cmd bytes status time : Nat) : List Nat :=
  padTo 64 ([pack, idx, state, 0] ++ leBytes 4 xfer ++ leBytes 32 cmd ++ leBytes 8 bytes ++ leBytes 4 status ++
    leBytes 4 0 ++ leBytes 8 time)

/-- The state of Retriever n of a pack (R171): while it runs a command, 1 while packets or pieces of it are still to be sent, 2
when what is to be sent first waits for credit or for room on an escape VC (R321, R326), 3 once all has been sent. -/
def State.retState (s : State) (p n : Nat) : Nat :=
  let r := s.ret p n
  match r.cur with
  | none => r.state
  | some (q, num) =>
    let mine := fun (o : Owner) => match o with
      | .cmd q' n' _ => q' == q && n' == num
      | _ => false
    let ids := (s.xfers.filter (fun x => mine x.2.owner)).map Prod.fst
    let own := fun (h : Pkt) => decide (h.src = s.endpoint p) && ids.contains h.xfer
    let queued := s.rte.inq.any (fun x => decide (168 ≤ x.1) && x.2.any (fun f => match f.hdr with
      | some h => own h
      | none => false))
    let routes := s.rte.route.filter (fun x => decide (168 ≤ x.1) && own x.2.hdr)
    if s.haccs.any (fun a => mine a.2.owner && decide (a.2.taken < a.2.len)) then 1
    else if routes.isEmpty && !queued then 3
    else if !routes.isEmpty && routes.all (fun x => decide (x.2.port < 8) &&
        (if x.2.granted then !(isEsc x.2.vc) && s.credits x.2.port x.2.vc == 0
         else !(s.headRoom x.2.hdr x.2.port x.2.vc false))) then 2
    else 1

/-- A host-port Retriever in the Howl of partition k (R247): the work that it holds for the partition's LD, which is the access
of its piece or the one whose last piece it took. -/
def State.hostRet (s : State) (k i : Nat) : List Nat :=
  let carries := fun (x : Nat × HostAcc) => x.2.ld == k &&
    s.hpieces.any (fun h => h.2.acc == x.1 && h.2.ret == i)
  match (s.haccs.find? carries).orElse (fun _ => s.haccs.find? (fun x => x.2.ld == k && x.2.ret == some i)) with
  | some (id, a) =>
    let cmd := match a.owner with
      | .cmd q num _ => match s.progOf q num with
        | some p => p.w
        | none => 0
      | _ => 0
    retRecord 0x10 i (if a.status ≠ 0 then 4 else if a.taken < a.len then 1 else 3) id cmd a.done a.status a.time
  | none => retRecord 0x10 i 0 0 0 0 0 0

def State.howlRets (s : State) (k : Nat) : List Nat :=
  let own := (s.partPacks k).foldr (fun p r => (List.range 4).foldr (fun n r2 =>
    let x := s.ret p n
    retRecord p n (s.retState p n) x.xfer (if x.cur.isSome then x.cmd else 0) x.bytes x.status x.time ++ r2) r) []
  own ++ s.hostRet k 0 ++ s.hostRet k 1

/-- The counter section of a pack (R248). -/
def State.howlCtrs (s : State) (p : Nat) : List Nat :=
  (List.range 1024).foldr (fun i r =>
    let c := s.ctr p i
    leBytes 8 (c.val + 2 ^ 32 * b2n c.ovf + 2 ^ 33 * b2n (s.inRange p i) + 2 ^ 34 * (c.waits.length % 32)) ++ r) []

/-- Is a partition stopped: HALT is set in every one of its queues (R238). -/
def State.isStopped (s : State) (k : Nat) : Bool := (s.partQueues k).all (fun q => s.bit (qBase q) SEQ_QCTRL.HALT)

/-- The whole Howl of a partition (R244), sampled now, with its CRC. -/
def State.howlBytes (s : State) (k n : Nat) (h : Nat × Nat × Nat × Bool) (more : Nat) : List Nat :=
  let qs := s.partQueues k
  let packs := s.partPacks k
  let len := 0x10000 + 8192 * packs.length
  let qsec := qs.foldr (fun q r => s.howlQueue q ++ r) []
  let csec := (List.range 16).foldr (fun c r => s.howlColl k c ++ r) []
  let head := leBytes 4 1 ++ leBytes 4 n ++ [k, h.1 % 256, h.1 / 256, b2n (s.isStopped k)] ++ leBytes 4 h.2.1 ++
    leBytes 8 h.2.2.1 ++ leBytes 8 s.ns ++ leBytes 8 s.ns ++ leBytes 4 more ++
    leBytes 2 (s.rd (shapePBase k) SHAPE_PCFG.PACKS) ++ leBytes 2 qs.length ++ leBytes 2 16 ++
    leBytes 2 (4 * packs.length + 2) ++ leBytes 4 len
  let before := padTo 0xFC head
  let after := List.replicate 0xF00 0 ++ padTo 0xB000 qsec ++ csec ++ padTo 0x3000 (s.howlRets k) ++
    packs.foldr (fun p r => s.howlCtrs p ++ r) []
  before ++ leBytes 4 (crc32c (before ++ [0, 0, 0, 0] ++ after)) ++ after

/-- The writer finishes a Howl (R242): the sections, then the header. When any of its writes fails, the format stays 0 (R240,
R266). -/
def howlDone (s : State) (k : Nat) : State :=
  let p := s.part k
  match p.howl with
  | none => s
  | some h =>
    let n := p.howls + 1
    let a := s.howlSlot k n
    let bytes := s.howlBytes k n h p.howlMore
    let (s, st) := memWrite s .kennel (a + 0x1000) (bytes.drop 0x1000)
    let (s, st) := if st = 0 ∧ !h.2.2.2 then memWrite s .kennel a (bytes.take 0x1000) else (s, 1)
    let s := if st = 0 then s else (memWrite s .kennel a [0, 0, 0, 0]).1
    let s := s.setP k { s.part k with howl := none, howls := n, howlMore := 0, howlReq := [] }
    let s := forEach (s.partPacks k) s (fun s pk =>
      (s.wr (syncBase pk) SYNC_HOWLCNT.COUNT n).wr (syncBase pk) SYNC_STAT.HOWL_DONE 1)
    raiseEv s .syncHowl (some k) { subj := n % 4, detail := n }

/-- The host asks for a Howl through a pack of the partition (R240, R249). -/
def howlRequest (s : State) (k pack : Nat) : State :=
  let s := s.setP k { s.part k with howlReq := (s.part k).howlReq ++ [pack] }
  startHowl s k 2 0 0

/-! Leashes. -/

/-- HALT of a queue (R167): the open block takes no further command. -/
def setHalt (s : State) (q : QId) : State := stopBlock (s.wr (qBase q) SEQ_QCTRL.HALT 1) q

/-- A Leash fires (R237, R238). -/
def leashFire (s : State) (q : QId) : State :=
  let b := qBase q
  let s := s.wr b SEQ_QLSTAT.FIRED 1
  let s := s.setQ q { s.queue q with armed := false }
  let limit := s.rd b SEQ_QLEASH.LIMIT
  let s := raiseEv s .syncLeash (s.qPart q)
    { qword := qWord q, retired := s.rd b SEQ_QRETIRED.COUNT, detail := limit,
      tag := match s.headCmd q with
        | some (_, w) => cwTAG w
        | none => 0 }
  match s.qPart q with
  | none => s
  | some k =>
    let s := if s.bit b SEQ_QLEASH.STOP then forEach (s.partQueues k) s setHalt else s
    startHowl s k 1 0 (qWord q)

/-- The limit of a Leash in µs: 0 acts as 1, and values above 60,000,000 as 60,000,000. -/
def State.leashLimit (s : State) (q : QId) : Nat := min 60000000 (max 1 (s.rd (qBase q) SEQ_QLEASH.LIMIT))

/-- The row LEASH_FIRE: a running Leash whose count has reached its limit. -/
def leashCheck (s : State) (q : QId) : State :=
  if s.leashRuns q && decide (s.leashLimit q ≤ s.rd (qBase q) SEQ_QLSTAT.ELAPSED) then leashFire s q else s

/-- The fabric time passes a microsecond: a Leash that has run since the one before counts it (R236: whole microseconds, so
that it fires between LIMIT and LIMIT + 1 µs after its restart, R237); an idle queue's count returns to 0. -/
def leashTick (s : State) (q : QId) : State :=
  let b := qBase q
  let qu := s.queue q
  if s.leashRuns q then
    if qu.whole then leashCheck (s.wr b SEQ_QLSTAT.ELAPSED (s.rd b SEQ_QLSTAT.ELAPSED + 1)) q
    else s.setQ q { qu with whole := true }
  else
    let s := if qu.whole then s.setQ q { qu with whole := false } else s
    if s.qIdle q then s.wr b SEQ_QLSTAT.ELAPSED 0 else s

end Sys2Proof.Machine
end

