-- ==== Sys2Proof/Machine/Ecdh.lean ====
section
/-! DEFINITION. The key agreement of a link exchange (R293, R438): ECDH on the curve P-384 (SP 800-186) and HKDF with SHA-384
(RFC 5869). A point is its pair of coordinates, or none for the point at infinity. -/

namespace Sys2Proof.Machine

/-- The field prime, the order of the base point, and the base point. The curve is y² = x³ − 3x + b. -/
def ecP : Nat := 2 ^ 384 - 2 ^ 128 - 2 ^ 96 + 2 ^ 32 - 1
def ecN : Nat := 0xFFFFFFFFFFFFFFFFFFFFFFFFFFFFFFFFFFFFFFFFFFFFFFFFC7634D81F4372DDF581A0DB248B0A77AECEC196ACCC52973
def ecB : Nat := 0xB3312FA7E23EE7E4988E056BE3F82D19181D9C6EFE8141120314088F5013875AC656398D8A2ED19D2A85C8EDD3EC2AEF
def ecG : Nat × Nat :=
  (0xAA87CA22BE8B05378EB1C71EF320AD746E1D3B628BA79B9859F741E082542A385502F25DBF55296C3A545E3872760AB7,
   0x3617DE4A96262C6F5D9E98BF9292DC29F8F41DBD289A147CE9DA3113B5F0B8C00A60B1CE1D7E819D7A431D7C90EA0E5F)

/-- A power in the field, by the bits of the exponent. -/
def ecPow (x e : Nat) : Nat :=
  ((List.range 384).foldl (fun (a : Nat × Nat) k => (if e / 2 ^ k % 2 = 1 then a.1 * a.2 % ecP else a.1, a.2 * a.2 % ecP)) (1, x % ecP)).1

/-- Difference and quotient in the field. -/
def ecSub (x y : Nat) : Nat := (x + ecP - y % ecP) % ecP
def ecDiv (x y : Nat) : Nat := x * ecPow y (ecP - 2) % ecP

/-- Is a pair of coordinates a point of the curve. -/
def ecOn (q : Nat × Nat) : Bool :=
  decide (q.1 < ecP) && decide (q.2 < ecP) && q.2 * q.2 % ecP == ecSub (q.1 * q.1 * q.1 + ecB) (3 * q.1)

/-- The sum of two points by their chord or tangent. -/
def ecAdd (a b : Option (Nat × Nat)) : Option (Nat × Nat) :=
  match a, b with
  | none, q => q
  | q, none => q
  | some u, some v =>
    if u.1 = v.1 ∧ (u.2 ≠ v.2 ∨ u.2 = 0) then none
    else
      let slope := if u.1 = v.1 then ecDiv (ecSub (3 * u.1 * u.1) 3) (2 * u.2) else ecDiv (ecSub v.2 u.2) (ecSub v.1 u.1)
      let x := ecSub (slope * slope) (u.1 + v.1)
      some (x, ecSub (slope * ecSub u.1 x) u.2)

/-- A multiple of a point, most significant bit first. -/
def ecMul (k : Nat) (q : Nat × Nat) : Option (Nat × Nat) :=
  (List.range 384).foldl (fun r i =>
    let r2 := ecAdd r r
    if k / 2 ^ (383 - i) % 2 = 1 then ecAdd r2 (some q) else r2) none

/-- The private scalar of a draw, from 1 to the order less 1, and its public point. -/
def ecScalar (draw : Nat) : Nat := draw % (ecN - 1) + 1
def ecPublic (draw : Nat) : Nat × Nat := (ecMul (ecScalar draw) ecG).getD (0, 0)

/-- The x-coordinate of the shared point. -/
def ecShared (draw : Nat) (peer : Nat × Nat) : Nat := ((ecMul (ecScalar draw) peer).getD (0, 0)).1

/-- HMAC with SHA-384, for a key of at most 128 bytes. -/
def hmac384 (key msg : List Nat) : List Nat :=
  let k := key ++ List.replicate (128 - key.length) 0
  let pad := fun (c : Nat) => k.map (fun b => Nat.xor b c)
  sha384 (pad 0x5C ++ sha384 (pad 0x36 ++ msg))

/-- The first 32 bytes of HKDF with SHA-384. -/
def hkdf384 (salt ikm info : List Nat) : List Nat := (hmac384 (hmac384 salt ikm) (info ++ [1])).take 32

end Sys2Proof.Machine
end

