-- ==== Sys2Proof/Machine/Wire.lean ====
section
/-! DEFINITION. What a flit is on the wire (R282, R291, R315, R316): the layout of its header, of the flit tag and of the
packet header, the cipher of its payload, and its CRC. -/

namespace Sys2Proof.Machine

/-- Bytes cut or filled with zeros to a length. -/
def fit (n : Nat) (bs : List Nat) : List Nat := (bs ++ List.replicate (n - bs.length) 0).take n

/-- Bits of a byte from their values, lowest first, each with its width. -/
def packBits : List (Nat × Nat) → Nat
  | [] => 0
  | (w, v) :: r => v % 2 ^ w + 2 ^ w * packBits r

/-- The flit tag, bytes 0 to 15 of a payload (R315); bytes 2 to 15 are reserved. -/
def tagBytes (p : Payload) : List Nat :=
  fit 16 [packBits [(5, p.vc), (1, p.head.toNat), (1, p.tail.toNat), (1, p.abort.toNat)], packBits [(6, p.fidx), (2, 0)]]

/-- The packet header, bytes 16 to 63 of the head flit's payload (R316). -/
def headerBytes (h : Pkt) : List Nat :=
  leBytes 3 h.dest ++ leBytes 3 h.src ++
    [h.typ % 256, packBits [(3, h.cls), (1, h.esc.toNat), (1, h.last.toNat), (1, h.ssp.toNat), (2, h.sstep)]] ++
    leBytes 4 h.xfer ++ leBytes 4 h.collar ++ leBytes 5 h.addr ++ [h.len32 % 256, h.status % 256, h.hops % 256] ++
    [packBits [(4, h.tie), (4, h.dl)], packBits [(4, h.ut), (2, h.ssax), (2, 0)], 0, 0] ++
    leBytes 4 h.bmask ++ leBytes 8 h.itime ++ leBytes 3 h.fep ++ leBytes 5 h.faddr

/-- The 240 bytes of a payload: flit tag, and header with body in a head flit, or data. -/
def payloadBytes (p : Payload) : List Nat :=
  tagBytes p ++ match p.hdr with
    | some h => headerBytes h ++ fit 176 h.body
    | none => fit 224 p.data

/-- The payload of a null flit (R287): its notice and the mask. -/
def noticeBytes (l : LinkNotice) : List Nat :=
  fit 240 (match l with
    | .none => []
    | .degrade m => 1 :: leBytes 2 m
    | .restore m => 2 :: leBytes 2 m)

/-- Bytes 0 to 11 of a flit (R282). -/
def flitHead (f : Flit) : List Nat :=
  leBytes 4 f.seq ++ leBytes 4 f.ack ++
    [packBits [(4, f.slot), (1, f.kph), (1, f.pad.toNat), (1, f.isNull.toNat), (1, 0)], packBits [(4, f.fpos), (4, 0)],
     f.tagb % 256, f.nak.toNat]

/-- The link ID of a sender (R291). -/
def linkId (coord port slot : Nat) : Nat := coord % 2 ^ 19 * 2 ^ 13 + port % 8 * 2 ^ 10 + slot % 16 * 2 ^ 6

/-- The keystream of AES-256-GCM for the payload at a position of a frame (R291): its counter blocks follow that of the tag. -/
def flitStream (key id counter fpos : Nat) : List Nat :=
  let ks := aesKeys (beBytes 32 key)
  (List.range 15).foldr (fun k r => aesEnc ks (beBytes 4 id ++ beBytes 8 counter ++ beBytes 4 (2 + 15 * fpos + k)) ++ r) []

/-- The payload as it stands on the wire: encrypted, but for a null flit (R287, R291). -/
def wirePayload (key id counter : Nat) (f : Flit) : List Nat :=
  if f.isNull then noticeBytes f.linkNotice
  else xorBytes (payloadBytes f.payload) (flitStream key id counter f.fpos)

/-- The product of two blocks in the field of GCM, a block being the number of its 16 bytes, most significant first. -/
def ghashMul : Nat → Nat → Nat → Nat → Nat
  | 0, _, _, z => z
  | n + 1, x, v, z =>
    ghashMul n x (if v % 2 = 1 then Nat.xor (v / 2) (0xE1 * 2 ^ 120) else v / 2)
      (if x / 2 ^ n % 2 = 1 then Nat.xor z v else z)

/-- GHASH of whole blocks under a hash key. -/
def ghash (h : Nat) (bs : List Nat) : Nat :=
  (List.range (bs.length / 16)).foldl (fun y i => ghashMul 128 (Nat.xor y (beNat ((bs.drop (16 * i)).take 16))) h 0) 0

/-- Bytes filled with zeros to whole blocks. -/
def blocks (bs : List Nat) : List Nat := fit ((bs.length + 15) / 16 * 16) bs

/-- The tag of AES-256-GCM under round keys and a 96-bit IV, over additional data and cipher text (SP 800-38D). -/
def gcmTag (ks : List (List Nat)) (iv aad cipher : List Nat) : List Nat :=
  let y := ghash (beNat (aesEnc ks (List.replicate 16 0)))
    (blocks aad ++ blocks cipher ++ beBytes 8 (8 * aad.length) ++ beBytes 8 (8 * cipher.length))
  xorBytes (beBytes 16 y) (aesEnc ks (iv ++ [0, 0, 0, 1]))

/-- The tag of a frame (R291): over bytes 0 to 3, 8 and 9 of its flits and their encrypted payloads. -/
def frameTag (key id counter : Nat) (fl : List Flit) : List Nat :=
  gcmTag (aesKeys (beBytes 32 key)) (beBytes 4 id ++ beBytes 8 counter)
    (fl.foldr (fun f r => (flitHead f).take 4 ++ ((flitHead f).drop 8).take 2 ++ r) [])
    (fl.foldr (fun f r => wirePayload key id counter f ++ r) [])

/-- The flit with its CRC over bytes 0 to 251 (R282). -/
def sealFlit (key id counter : Nat) (f : Flit) : Flit :=
  { f with crc := crc32c (flitHead f ++ wirePayload key id counter f) }

/-- The 256 bytes of a flit (R282). -/
def flitBytes (key id counter : Nat) (f : Flit) : List Nat :=
  flitHead f ++ wirePayload key id counter f ++ leBytes 4 f.crc

end Sys2Proof.Machine
end

