-- ==== Sys2Proof/Machine/Link.lean ====
section
/-! DEFINITION. Dweilo links, first half (09_fabric_links.md): sequence numbers, retry and acknowledgment (R282 to R288),
frames and key phases (R290 to R296), lane masks (R297 to R299). A frame's authentication arrives as a fact of its
command. -/

namespace Sys2Proof.Machine

/-! Link state codes of R300 and reasons of R312. -/
def lkDISABLED : Nat := 0
def lkDETECT : Nat := 1
def lkPHY : Nat := 2
def lkALIGN : Nat := 3
def lkIDENT : Nat := 4
def lkAUTH : Nat := 5
def lkCONFIRM : Nat := 6
def lkACTIVE : Nat := 7
def lkHELD : Nat := 8
def lkBACKOFF : Nat := 9

def rsNoSignal : Nat := 1
def rsAckTimeout : Nat := 2
def rsTrain : Nat := 3
def rsWidth : Nat := 4
def rsAuth : Nat := 5
def rsAuthFail : Nat := 6
def rsWrongPeer : Nat := 7
def rsLevel : Nat := 8
def rsLoop : Nat := 9
def rsHost : Nat := 0xA
def rsTpChange : Nat := 0xB

/-- The state of a port's link. -/
def State.lkState (s : State) (n : Nat) : Nat := s.rd (lnkBase n) LNK_STAT.STATE

/-- Does a link carry flits: in CONFIRM and ACTIVE. -/
def State.flows (s : State) (n : Nat) : Bool := s.lkState n == lkCONFIRM || s.lkState n == lkACTIVE

/-- Does a link have a receive mask on which lanes are active: from IDENT to ACTIVE (R297, R298). -/
def State.lanesOn (s : State) (n : Nat) : Bool := decide (lkIDENT ≤ s.lkState n) && decide (s.lkState n ≤ lkACTIVE)

/-- Serial comparison of sequence numbers (R17, R284). -/
def seqLt (a b : Nat) : Bool :=
  let d := (b + 2 ^ 32 - a) % 2 ^ 32
  decide (0 < d) && decide (d < 2 ^ 31)

/-- Microseconds in units of 1/7 ns. -/
def usUnits (n : Nat) : Nat := 7000 * n

/-! The receiver. -/

/-- ACK: the smallest number not both received in order and authenticated (R285). -/
def Link.ack (l : Link) : Nat :=
  match l.rxHeld with
  | f :: _ => f.seq
  | [] => l.rxExpect

/-- The receiver asks for a rewind (R286): NAK, the held flits dropped, ACK expected. -/
def Link.nak (l : Link) : Link := { l with nakOut := true, rxExpect := l.ack, rxHeld := [] }

/-- The keys of the phase that is not the newest are destroyed, for sending (0) or receiving (1) (R295). -/
def Link.dropKeys (l : Link) (dir : Nat) : Link :=
  { l with keys := l.keys.filter (fun x => !(x.1 / 18 == dir && x.1 / 9 % 2 != l.phase)) }

/-- The heads whose tails have not been acknowledged, in the order of their sending, after a flit has been (R335). -/
def keepHead (h : Tbl Pkt) (p : Payload) : Tbl Pkt :=
  let h := match p.hdr with
    | some hd => tdel h p.vc ++ [(p.vc, hd)]
    | none => h
  if p.tail then tdel h p.vc else h

/-- The sender frees the flits below ACK (R285) and keeps the head of a packet whose tail is not freed with it (R335); the
old phase's keys go once no flit of that phase is left, for every slot sends its next frame under the new ones (R295). -/
def freeRetry (s : State) (n a : Nat) : State :=
  let l := s.link n
  let gone := l.retry.filter (fun e => seqLt e.2.seq a)
  let left := l.retry.filter (fun e => !(seqLt e.2.seq a))
  let heads := gone.foldl (fun h e => keepHead h e.2.payload) l.heads
  let old := l.keyOld && left.any (fun e => e.2.kph != l.phase)
  let rw := match l.rewind with
    | some q => if left.isEmpty then none else some (if seqLt q a then a else q)
    | none => none
  let l := if l.keyOld && !old then l.dropKeys 0 else l
  s.setL n { l with retry := left, heads := heads, keyOld := old, rewind := rw }

/-- What ACK and NAK of a flit do to the sending side (R285, R286): a NAK during a rewind restarts it. -/
def takeAck (s : State) (n : Nat) (f : Flit) : State :=
  let s := freeRetry s n f.ack
  if f.nak then
    let l := s.link n
    let s := if l.rewind.isNone then s.bump (lnkBase n) LNK_NAKS.COUNT LNK_NAKS.WRAP 1 else s
    s.setL n { l with rewind := if l.retry.isEmpty then none else some f.ack }
  else s

/-! Lane masks. -/

def popCount (m : Nat) : Nat := ((List.range 12).filter (fun k => bitAt m k)).length

/-- The n lowest lanes of a mask. -/
def lowestLanes (m n : Nat) : Nat :=
  (((List.range 12).filter (fun k => bitAt m k)).take n).foldl (fun x k => x + 2 ^ k) 0

/-- The mask of R297 from the good lanes and MAXW. -/
def chooseMask (good maxw : Nat) : Option Nat :=
  let c := popCount good
  if c = 12 ∧ maxw = 0 then some 0xFFF
  else if 8 ≤ c ∧ maxw ≤ 1 then some (lowestLanes good 8)
  else if 6 ≤ c then some (lowestLanes good 6)
  else none

/-- The width code of a mask (LNK_STAT.TXW). -/
def widthCode (m : Nat) : Nat :=
  match popCount m with
  | 6 => 1
  | 8 => 2
  | 12 => 3
  | _ => 0

/-- The sender switches its striping to the mask of a notice (R298, R299). -/
def applyNotice (s : State) (n mask : Nat) : State :=
  if s.lanesOn n ∧ widthCode mask ≠ 0 then
    (s.wr (lnkBase n) LNK_STAT.TXMASK mask).wr (lnkBase n) LNK_STAT.TXW (widthCode mask)
  else s

/-- The receiver stops accepting flits and asks for a mask (R298 steps 1 and 2, R299). -/
def changeMask (s : State) (n mask : Nat) (nt : LinkNotice) : State :=
  s.setL n { s.link n with newMask := some mask, noticeOut := nt, noticed := false }

/-- A lane goes bad and the direction narrows (R298). `none` means that the width fails. -/
def laneBad (s : State) (n lane : Nat) : Option State :=
  let b := lnkBase n
  let l := s.link n
  let good := if bitAt l.good lane then l.good - 2 ^ lane else l.good
  match chooseMask good (s.rd b LNK_CFG.MAXW) with
  | none => none
  | some m =>
    let s := s.setL n { l with good := good }
    let s := changeMask s n m (.degrade m)
    let s := s.wr b LNK_STAT.DEGRADED 1
    some (raiseEv s .lnkDegrade none { subj := n, detail := m })

/-- A wider mask is possible (R299). -/
def restorePossible (s : State) (n lanes : Nat) : State :=
  let b := lnkBase n
  let l := s.link n
  let good := l.good ||| lanes % 4096
  match chooseMask good (s.rd b LNK_CFG.MAXW) with
  | some m =>
    if s.lkState n = lkACTIVE ∧ s.bit b LNK_CTRL.AUTO_RESTORE ∧ 2 ≤ s.rd b LNK_LEVEL.ALINK ∧ l.newMask = none ∧
        popCount (s.rd b LNK_STAT.RXMASK) < popCount m then
      changeMask (s.setL n { l with good := good }) n m (.restore m)
    else s
  | none => s

/-- The receiver has deskewed on its new mask and sets NAK (R298 step 4). -/
def receiverDeskew (s : State) (n : Nat) : State :=
  let l := s.link n
  match l.newMask with
  | some m =>
    let s := (s.wr (lnkBase n) LNK_STAT.RXMASK m).wr (lnkBase n) LNK_STAT.RXW (widthCode m)
    s.setL n { l.nak with newMask := none, noticeOut := .none }
  | none => s

/-- The FEC counts that come with a flit (R281, R313). -/
def fecCounts (s : State) (n : Nat) (f : Flit) : State :=
  let b := lnkBase n
  let s := if f.fecCorr = 0 then s else s.bump b LNK_FECCORR.COUNT LNK_FECCORR.WRAP f.fecCorr
  let s := if f.fecUnc = 0 then s else s.bump b LNK_FECUNC.COUNT LNK_FECUNC.WRAP f.fecUnc
  forEach ((List.range 12).filter (fun k => f.laneErr.getD k 0 != 0)) s (fun s k =>
    s.bump b (LNK_LANEERR.COUNT k) (LNK_LANEERR.WRAP k) (f.laneErr.getD k 0))

/-- Is a flit discarded under R283: its CRC does not match, or it overlaps an uncorrectable codeword (R281). -/
def flitBad (f : Flit) : Bool := !f.crcOk || f.fecBad || f.fecUnc != 0

/-- A flit is discarded (R283, R286): counted, and a rewind is asked for. -/
def discardFlit (s : State) (n : Nat) : State :=
  (s.setL n (s.link n).nak).bump (lnkBase n) LNK_CRCERR.COUNT LNK_CRCERR.WRAP 1

/-- One flit arrives (R283 to R287). FEC counts from FEC lock in ALIGN on (R281, R300). After a bad flit every flit is
discarded until the expected one; what a discarded flit with a matching CRC says in ACK and NAK still acts (log 53). -/
def recvFlit (s : State) (n : Nat) (f : Flit) : State :=
  let s := if lkALIGN ≤ s.lkState n ∧ s.lkState n ≤ lkACTIVE then fecCounts s n f else s
  let l := s.link n
  if !(s.flows n) || l.newMask.isSome then s
  else if flitBad f then discardFlit (s.setL n { l with rxDrop := true }) n
  else
    let s := takeAck (s.setL n { l with lastGood := s.clock }) n f
    let l := s.link n
    if l.rxDrop && (f.isNull || f.seq != l.rxExpect) then discardFlit s n
    else if f.isNull then
      let s := match f.linkNotice with
        | .none => s
        | .degrade m => applyNotice s n m
        | .restore m => applyNotice s n m
      if seqLt l.rxExpect f.seq then s.setL n (s.link n).nak else s
    else if f.seq = l.rxExpect then
      if l.rxAuth.contains f.seq then
        s.setL n { l with
          rxExpect := (l.rxExpect + 1) % 2 ^ 32, rxDrop := false, rxAuth := l.rxAuth.filter (fun q => q != f.seq) }
      else s.setL n { l with rxExpect := (l.rxExpect + 1) % 2 ^ 32, rxDrop := false, rxHeld := l.rxHeld ++ [f] }
    else if seqLt l.rxExpect f.seq then s.setL n l.nak
    else s

/-- The held flits of a slot, in order. -/
def Link.slotHeld (l : Link) (slot : Nat) : List Flit := l.rxHeld.filter (fun f => f.slot == slot)

/-- Is a whole frame of a slot held (R292). -/
def Link.frameHeld (l : Link) (slot : Nat) : Bool := ((l.slotHeld slot).take 16).map (·.fpos) == List.range 16

/-- The link without the first frame of a slot, whose flits are now authenticated. -/
def Link.passFrame (l : Link) (slot : Nat) : Link :=
  let seqs := ((l.slotHeld slot).take 16).map (·.seq)
  let l := { l with rxHeld := l.rxHeld.filter (fun f => !(seqs.contains f.seq)) }
  { l with rxAuth := (l.rxAuth ++ seqs).filter (fun q => !(seqLt q l.ack)) }

/-- The receive frame counter of a slot after a frame of a key phase has passed (R290): it restarts at 0 with a phase. Once a
frame of the newest phase has come and no flit of the old one is held, every frame of that one has passed and its keys are
destroyed (R295): the peer begins no more of them. -/
def Link.countFrame (l : Link) (slot kph : Nat) : Link :=
  let same := tgetD l.rxPh slot 0 == kph
  let l := { l with
    rxCnt := tset l.rxCnt slot (if same then tgetD l.rxCnt slot 0 + 1 else 1), rxPh := tset l.rxPh slot kph }
  if l.rxOld && (kph == l.phase || !l.rxHeld.isEmpty) && l.rxHeld.all (fun f => f.kph == l.phase) then
    { l.dropKeys 1 with rxOld := false }
  else l

/-! The sender. -/

def Link.slot (l : Link) (k : Nat) : TxSlot := tgetD l.slots k {}

/-- May a slot send a flit: a new frame needs a frame counter below 2^48 or a new key phase (R296). -/
def State.slotFree (s : State) (n k : Nat) : Bool :=
  let t := (s.link n).slot k
  t.fpos != 0 || t.switch || decide (s.rd (lnkBase n) (LNK_FCNT.COUNT k) < 2 ^ 48)

/-- Is the retry buffer full (R287). -/
def Link.full (l : Link) : Bool := decide (2048 ≤ l.retry.length)

/-- A flit as a port sends it: sealed under the key and counter of its frame (R282, R291). -/
def State.seal (s : State) (n : Nat) (f : Flit) : Flit :=
  sealFlit (tgetD (s.link n).keys (9 * f.kph + f.slot) 0) (linkId s.coord n f.slot) f.frame f

/-- A frame of a slot is complete: its flits, in the retry buffer and where they have been sent, carry its tag (R282, R291). That
the first of them go out before the last is known is left open: they show the tag from here on (DESIGN CHOICE, log 135). -/
def sealFrame (s : State) (n k kph cnt : Nat) : State :=
  let l := s.link n
  let mine := fun (f : Flit) => f.tagOpen && f.slot == k && f.kph == kph && f.frame == cnt
  let fl := (l.retry.map (·.2)).filter mine
  let tag := frameTag (tgetD l.keys (9 * kph + k) 0) (linkId s.coord n k) cnt fl
  let put := fun (f : Flit) => if mine f then s.seal n { f with tagb := tag.getD f.fpos 0, tagOpen := false } else f
  let sent := fun (f : Flit) => fl.any (fun g => g.seq == f.seq && g.payload == f.payload)
  { s.setL n { l with retry := l.retry.map (fun e => (e.1, put e.2)) } with
    out := s.out.map (fun o => match o with
      | .flit m f => if m = n ∧ sent f then .flit m (put f) else o
      | o => o) }

/-- Send a new flit in a slot (R284, R290, R294): at a frame's start a pending key switch changes to the newest phase and restarts
the frame counter; the counter counts completed frames. -/
def sendFlit (s : State) (n k : Nat) (pad : Bool) (p : Payload) : State :=
  let b := lnkBase n
  let l := s.link n
  let t := l.slot k
  let s := if t.fpos = 0 ∧ t.switch then
      (s.wr b (LNK_FCNT.KPH k) l.phase).wr b (LNK_FCNT.COUNT k) 0
    else s
  let cnt := s.rd b (LNK_FCNT.COUNT k)
  let kph := s.rd b (LNK_FCNT.KPH k)
  let f := s.seal n { seq := l.txSeq, ack := l.ack, slot := k, kph := kph, pad := pad, frame := cnt, fpos := t.fpos
                      nak := l.nakOut, payload := p, tagb := (Config.tagByte n k cnt t.fpos).toNat, tagOpen := true }
  let t' : TxSlot :=
    { fpos := (t.fpos + 1) % 16, opened := if t.fpos = 0 then s.nclk else t.opened, switch := t.switch && t.fpos != 0 }
  let s := if t.fpos = 15 then s.wr b (LNK_FCNT.COUNT k) (cnt + 1) else s
  let s := s.setL n { l with
    txSeq := (l.txSeq + 1) % 2 ^ 32, retry := l.retry ++ [(s.clock, f)], slots := tset l.slots k t', nakOut := false }
  let s := s.emit (.flit n f)
  if t.fpos = 15 then sealFrame s n k kph cnt else s

/-- Send a null flit (R287): the next number, ACK, NAK and the notice. -/
def sendNull (s : State) (n : Nat) : State :=
  let l := s.link n
  let f := s.seal n { seq := l.txSeq, ack := l.ack, nak := l.nakOut, isNull := true, linkNotice := l.noticeOut }
  (s.setL n { l with nakOut := false, noticed := true }).emit (.flit n f)

/-- Resend the next flit of a rewind with its original header apart from ACK and NAK (R286). -/
def resendFlit (s : State) (n q : Nat) : State :=
  let l := s.link n
  match l.retry.find? (fun e => e.2.seq == q) with
  | some (_, f) =>
    let last := match l.retry.getLast? with
      | some e => e.2.seq == q
      | none => true
    let s := s.setL n { l with nakOut := false, rewind := if last then none else some ((q + 1) % 2 ^ 32) }
    s.emit (.flit n (s.seal n { f with ack := l.ack, nak := l.nakOut }))
  | none => sendNull (s.setL n { l with rewind := none }) n

/-- Complete an open frame with pad flits, as far as the retry buffer has room (R290, R287). -/
def padFrame : Nat → State → Nat → Nat → State
  | 0, s, _, _ => s
  | fuel + 1, s, n, k =>
    if ((s.link n).slot k).fpos = 0 ∨ (s.link n).full then s else padFrame fuel (sendFlit s n k true {}) n k

/-- The PAD event of a slot: its frame has been open for PAD_NCLK (R290; 0 acts as 1, R313). -/
def padTimeout (s : State) (n k : Nat) : State :=
  let t := (s.link n).slot k
  if s.flows n ∧ t.fpos ≠ 0 ∧ t.opened + max 1 (s.rd (lnkBase n) LNK_CTRL.PAD_NCLK) ≤ s.nclk then padFrame 16 s n k else s

/-- Queue a link-local packet on a port whose link is ACTIVE (R322). -/
def sendLocal (s : State) (n : Nat) (p : Pkt) : State :=
  if s.lkState n = lkACTIVE then s.setL n { s.link n with llOut := (s.link n).llOut ++ [p] } else s

end Sys2Proof.Machine
end

