-- ==== Sys2Proof/Machine/Keyx.lean ====
section
/-! DEFINITION. Key exchanges of a link (R293 to R296, R438): the messages of both ends, the checks of the peer, the keys of
every direction and slot, and rekeys. -/

namespace Sys2Proof.Machine

/-- The unit that sends the management packets of a link: the router (R302). -/
def State.router (s : State) : Nat := s.endpoint 19

/-- The identity record of a port (R302). -/
def State.identBytes (s : State) (n : Nat) : List Nat :=
  let b := lnkBase n
  leBytes 4 1 ++ leBytes 4 s.router ++
    [n, packBits [(2, s.rd b LNK_CFG.AXIS), (1, s.rd b LNK_CFG.DIR), (1, s.rd b LNK_CFG.AUTO)], s.rd b LNK_LEVEL.LINK,
     s.rd b LNK_LEVEL.COLL] ++ leBytes 4 (s.rd shapeBase SHAPE_ID.ID) ++ leBytes 8 s.ident.uid

/-- The nonce and the ephemeral public key of an exchange as bytes, 32 and 96. -/
def nonceBytes (x : Nat) : List Nat := leBytes 32 x
def pointBytes (q : Nat × Nat) : List Nat := beBytes 48 q.1 ++ beBytes 48 q.2

/-- The certificates of this device up to that of its identity key (R446). -/
def State.deviceChain (s : State) : List Nat :=
  (List.range (Config.certLen s.ident.uid)).map (fun i => (Config.certByte s.ident.uid i).toNat)

/-- This end's message (R438 step 1): nonce, ephemeral key and certificate chain, before which stands what the chain
certifies, the unique ID and the modulus of the identity key (DESIGN CHOICE, log 110). -/
def State.kxMsg (s : State) (x : Kx) : List Nat :=
  nonceBytes x.nonce ++ pointBytes (ecPublic x.eph) ++ leBytes 8 s.ident.uid ++ beBytes 384 (Config.identityKey s.ident.uid) ++
    s.deviceChain

/-- The parts of the peer's message. -/
def Kx.peerNonce (x : Kx) : List Nat := slice x.msg 0 32
def Kx.peerPoint (x : Kx) : Nat × Nat := (beNat (slice x.msg 32 48), beNat (slice x.msg 80 48))
def Kx.peerUid (x : Kx) : Nat := leNat (slice x.msg 128 8)
def Kx.peerKey (x : Kx) : Nat := beNat (slice x.msg 136 384)
def Kx.peerChain (x : Kx) : List Nat := x.msg.drop 520

/-- What an end signs (R438 step 2): the leader's nonce, the follower's, both ephemeral keys and that end's identity record. -/
def Kx.signed (x : Kx) (record : List Nat) : List Nat :=
  let a := (nonceBytes x.nonce, pointBytes (ecPublic x.eph))
  let b := (x.peerNonce, pointBytes x.peerPoint)
  let (u, v) := if x.lead then (a, b) else (b, a)
  u.1 ++ v.1 ++ u.2 ++ v.2 ++ record

/-- The bodies of the packets that carry a message, which fit in a head flit (R315, R316): kind, packets after this one, and at
most 173 bytes (DESIGN CHOICE, log 110). -/
def keyxBodies (kind : Nat) (bytes : List Nat) : List (List Nat) :=
  let more := (bytes.length - 1) / 173
  (List.range (more + 1)).map (fun i => kind :: leBytes 2 (more - i) ++ (bytes.drop (173 * i)).take 173)

/-- A message of an exchange as KEYX packets: 1 opens, 2 answers, 3 signs. It goes in slot 8 of an ACTIVE link, and in AUTH
as the Kennels' own. -/
def sendKeyx (s : State) (n kind : Nat) (bytes : List Nat) : State :=
  forEach (keyxBodies kind bytes) s (fun s body =>
    let p : Pkt := { typ := tKEYX, src := s.router, last := true, body := body }
    if s.lkState n = lkACTIVE then sendLocal s n p else s.emit (.linkLocal n p))

/-- This end begins its part of an exchange, and sends its message. -/
def beginKx (s : State) (n : Nat) (opened : Bool) : State :=
  let (a, s) := knlDraw s
  let (b, s) := knlDraw s
  let x : Kx := { opened := opened, nonce := a % 2 ^ 256, eph := b }
  sendKeyx (s.setL n { s.link n with kx := some x }) n (if opened then 1 else 2) (s.kxMsg x)

/-- A rekey starts on an ACTIVE link; a request during a rekey merges into it. On any other link REQ stays set for the
training, which installs fresh keys (R294, R313). -/
def startRekey (s : State) (n : Nat) : State :=
  let b := lnkBase n
  if s.lkState n ≠ lkACTIVE then s.wr b LNK_REKEY.REQ 1
  else
    let s := s.wr b LNK_REKEY.REQ 0
    if s.bit b LNK_REKEY.BUSY then s else beginKx (s.wr b LNK_REKEY.BUSY 1) n true

/-- What Kennel's ROM holds of a Caereo key (R436): the SHA-256 of its modulus. -/
def caereoDigest (m : Nat) : List Nat := sha256 (beBytes 384 m)

/-- The peer's message has come (R294): when both ends opened, the one with the lower router endpoint ID leads. This end signs
while the KWK can unwrap its identity key (R451). -/
def takeKxMsg (s : State) (n kind src : Nat) (msg : List Nat) : State :=
  match (s.link n).kx with
  | some x =>
    if x.msg ≠ [] then s
    else
      let x := { x with msg := msg, lead := kind == 2 || (x.opened && decide (s.router < src)) }
      let s := s.setL n { s.link n with kx := some x }
      if !s.kn.kwk then s else
      let d := beNat (sha256 (x.signed (s.identBytes n)))
      sendKeyx s n 3 (beBytes 384 (Config.identitySign s.ident.uid d))
  | none => s

/-- KEYX arrives in AUTH or ACTIVE (R294): a message opens an exchange here too, or belongs to the one under way. It is taken
with its last packet. -/
def recvKeyx (s : State) (n : Nat) (p : Pkt) : State :=
  let kind := p.body.getD 0 0
  let last := leNat (slice p.body 1 2) == 0
  let part := p.body.drop 3
  let act := decide (s.lkState n = lkACTIVE)
  if !act && s.lkState n != lkAUTH then s
  else if kind = 3 then
    match (s.link n).kx with
    | some x =>
      let all := x.sigIn ++ part
      s.setL n { s.link n with kx := some (if last then { x with sig := all, sigIn := [] } else { x with sigIn := all }) }
    | none => s
  else
    let s := match (s.link n).kx with
      | some _ => s
      | none => beginKx (if act then (s.wr (lnkBase n) LNK_REKEY.BUSY 1).wr (lnkBase n) LNK_REKEY.REQ 0 else s) n false
    match (s.link n).kx with
    | some x =>
      let all := x.msgIn ++ part
      let s := s.setL n { s.link n with kx := some { x with msgIn := if last then [] else all } }
      if last then takeKxMsg s n kind p.src all else s
    | none => s

/-- Has everything of the peer come, and does it hold (R438 step 3): the unique ID of the identity record, a point of the curve,
and the signature. -/
def Kx.full (x : Kx) : Bool := decide (520 ≤ x.msg.length) && x.sig.length == 384
def Kx.good (x : Kx) (peer : List Nat) : Bool :=
  x.peerUid == leNat (slice peer 16 8) && ecOn x.peerPoint && rsaVerify x.peerKey (x.signed peer) x.sig

/-- The key of a slot for the sender with a link ID (R438 step 4). -/
def Kx.key (x : Kx) (id : Nat) : Nat :=
  let a := nonceBytes x.nonce
  let salt := if x.lead then a ++ x.peerNonce else x.peerNonce ++ a
  beNat (hkdf384 salt (beBytes 48 (ecShared x.eph x.peerPoint)) (beBytes 4 id))

/-- The keys of an exchange enter a phase, for both directions and all nine slots. -/
def installKeys (s : State) (n : Nat) (x : Kx) (phase : Nat) : State :=
  let b := lnkBase n
  let l := s.link n
  let keys := (List.range 9).foldl (fun t k =>
    let t := tset t (9 * phase + k) (x.key (linkId s.coord n k))
    tset t (18 + 9 * phase + k) (x.key (linkId (s.rd b LNK_PEER.COORD) (s.rd b LNK_PEER.PORT) k))) l.keys
  s.setL n { l with
    keys := keys, phase := phase, keyGen := l.keyGen + 1, peerKey := x.peerKey, peerChain := x.peerChain, kx := none
    stalled := false }

/-- Key exchanges done; the count does not wrap (R314). -/
def countRekey (s : State) (n : Nat) : State :=
  s.wr (lnkBase n) LNK_REKEY.COUNT (min (2 ^ 32 - 1) (s.rd (lnkBase n) LNK_REKEY.COUNT + 1))

/-- The rekey threshold: values outside 32 to 47 act as 44 (R313). -/
def State.rekeyThr (s : State) (n : Nat) : Nat :=
  let v := s.rd (lnkBase n) LNK_REKEY.THR_LOG2
  if 32 ≤ v ∧ v ≤ 47 then v else 44

/-- A frame counter has reached the threshold. -/
def rekeyThreshold (s : State) (n : Nat) : State :=
  if (List.range 9).any (fun k => decide (2 ^ s.rekeyThr n ≤ s.rd (lnkBase n) (LNK_FCNT.COUNT k))) ∧
      !(s.bit (lnkBase n) LNK_REKEY.BUSY) then startRekey s n
  else s

/-- A rekey has completed: the new keys are in the unused phase and every slot switches to it at its next frame start. A slot that
sent nothing through a whole rekey then stays in its phase, whose keys are new: its frame counters restart all the same. -/
def switchKeys (s : State) (n : Nat) (x : Kx) : State :=
  let s := installKeys (countRekey (s.wr (lnkBase n) LNK_REKEY.BUSY 0) n) n x (1 - (s.link n).phase)
  let l := s.link n
  s.setL n { l with
    keyOld := true, rxOld := true
    rxCnt := l.rxCnt.filter (fun x => tgetD l.rxPh x.1 0 != l.phase)
    slots := (List.range 9).foldl (fun t k => tset t k { tgetD t k {} with switch := true }) l.slots }

/-- A slot's frame counter is at its limit (R296): the first stall of a rekey is reported. -/
def counterLimit (s : State) (n k : Nat) : State :=
  let l := s.link n
  if s.lkState n = lkACTIVE ∧ k < 9 ∧ s.rd (lnkBase n) (LNK_FCNT.COUNT k) = 2 ^ 48 ∧ !(l.slot k).switch ∧ !l.stalled then
    raiseEv ((s.setL n { l with stalled := true }).wr (lnkBase n) LNK_REKEY.STALL 1) .lnkKeyStall none
      { subj := n, detail := k }
  else s

end Sys2Proof.Machine
end

