-- ==== Sys2Proof/Machine/Router.lean ====
section
/-! DEFINITION. The router (10_routing.md): ports and ring maps, routes of head flits (R323 to R328), credits (R321),
arbitration (R329), link failure, its notices, re-injection and discard (R334 to R336), telemetry (R338, R339). -/

namespace Sys2Proof.Machine

/-! Ports and maps. -/

/-- Logical axis and effective direction of a port (R301, R304). -/
def State.portAxis (s : State) (n : Nat) : Nat := s.rd (lnkBase n) LNK_CFG.AXIS
def State.portDir (s : State) (n : Nat) : Nat := s.rd (lnkBase n) LNK_STAT.EDIR

/-- The port of an axis and direction (0 +, 1 −). -/
def State.portFor (s : State) (a d : Nat) : Option Nat :=
  (List.range 8).find? (fun n => s.portAxis n == a && s.portDir n == d)

/-- Is a port up (R560). -/
def State.portUp (s : State) (n : Nat) : Bool := !(bitAt (s.rd rteBase RTE_LSMAP.PORTS) n)

/-- The up port of an axis and direction. -/
def State.upPort (s : State) (a d : Nat) : Option Nat :=
  match s.portFor a d with
  | some n => if s.portUp n then some n else none
  | none => none

/-- The ring map field of axis X, Y or Z. -/
def ringField (a : Nat) : Field :=
  match a with
  | 0 => RTE_LSMAP.XRING
  | 1 => RTE_LSMAP.YRING
  | _ => RTE_LSMAP.ZRING

/-- Is link i → i + 1 of an own ring down. -/
def State.ringDown (s : State) (a i : Nat) : Bool := bitAt (s.rd rteBase (ringField a)) (i % 4)

/-- Mark links i to i + h of an own ring. -/
def markRing (s : State) (a i h : Nat) (down : Bool) : State :=
  forEach ((List.range (h + 1)).map (fun k => (i + k) % 4)) s (fun s j =>
    let m := s.rd rteBase (ringField a)
    let m := if bitAt m j then m - 2 ^ j else m
    s.wr rteBase (ringField a) (if down then m + 2 ^ j else m))

/-- The first ring link that a port's link covers: with h devices passed through, it covers h + 1 of them. -/
def State.portLink (s : State) (n : Nat) : Nat :=
  let c := coordOn s.coord (s.portAxis n)
  if s.portDir n = 0 then c else (c + 7 - s.rd (lnkBase n) LNK_STAT.HOPS) % 4

/-- A router's own port goes down or up in its maps (R334, R560). -/
def markPort (s : State) (n : Nat) (down : Bool) : State :=
  let m := s.rd rteBase RTE_LSMAP.PORTS
  let m := if bitAt m n then m - 2 ^ n else m
  let s := s.wr rteBase RTE_LSMAP.PORTS (if down then m + 2 ^ n else m)
  if s.portAxis n < 3 then markRing s (s.portAxis n) (s.portLink n) (s.rd (lnkBase n) LNK_STAT.HOPS) down else s

/-! Productive directions. -/

/-- Links that a move from a by k hops in direction d crosses on a ring of 4. -/
def ringPath (a d k : Nat) : List Nat := (List.range k).map (fun i => if d = 0 then (a + i) % 4 else (a + 7 - i) % 4)

/-- The productive direction of an unfinished axis (R323); none when both directions of a ring meet down links. `inPort` is
the port of arrival, 8 for injection: a packet that has turned back goes straight on. -/
def State.productive (s : State) (h : Pkt) (inPort a : Nat) : Option Nat :=
  let own := coordOn s.coord a
  let dst := coordOn (h.dest / 32) a
  let n := s.axisSize a
  let f := (dst + n - own) % n
  let b := (own + n - dst) % n
  let tie := if bitAt h.tie a then 1 else 0
  let short := if f < b then 0 else if b < f then 1 else tie
  if bitAt h.ut a && decide (inPort < 8) && s.portAxis inPort == a then some (1 - s.portDir inPort)
  else if a = 3 then
    if s.bit (lnkBase 0) LNK_COORD.WCHAIN then some (if own < dst then 0 else 1) else some short
  else
    let free := fun d => (ringPath own d (if d = 0 then f else b)).all (fun i => !(s.ringDown a i))
    if free short then some short else if free (1 - short) then some (1 - short) else none

/-- The axes on which a packet is not there yet. -/
def State.unfinished (s : State) (h : Pkt) : List Nat :=
  (List.range 4).filter (fun a => coordOn s.coord a != coordOn (h.dest / 32) a)

/-- Does a hop from here in a direction cross the wrap of an axis (R324). -/
def State.wraps (s : State) (a d n : Nat) : Bool :=
  let own := coordOn s.coord a
  let step := s.rd (lnkBase n) LNK_STAT.HOPS + 1
  if a = 3 && s.bit (lnkBase 0) LNK_COORD.WCHAIN then false
  else if d = 0 then decide (s.axisSize a ≤ own + step) else decide (own < step)

/-- A header bit set for axis a. -/
def setBitAt (m a : Nat) : Nat := if bitAt m a then m else m + 2 ^ a

/-- The header as it leaves on a hop along axis a (R324, R328). -/
def State.hop (s : State) (h : Pkt) (a d n : Nat) : Pkt :=
  { h with
    hops := h.hops + 1
    dl := if s.wraps a d n then setBitAt h.dl a else h.dl
    ssp := h.ssp && a == h.ssax }

/-! Taking packets out, and LOST. -/

/-- Known packet types (R317, R365). -/
def knownTyp (t : Nat) : Bool :=
  (decide (1 ≤ t) && decide (t ≤ 8)) || t == 0x10 || t == 0x11 || (decide (0x18 ≤ t) && decide (t ≤ 0x1B)) ||
    t == tTELRQ || t == tTELRP

/-- The link-local types (R317, R322). -/
def localTyp (t : Nat) : Bool := decide (0x30 ≤ t) && decide (t ≤ 0x34)

/-- Deliver a packet to its unit, or discard one of an unknown type (R317, R328). -/
def deliverPkt (s : State) (p : Pkt) : State :=
  if knownTyp p.typ then eject s p else s.bump rteBase RTE_BADPKT.COUNT RTE_BADPKT.WRAP 1

/-- Bytes that a packet answers for: its sectors, or its body. -/
def pktBytes (h : Pkt) : Nat :=
  if h.typ = tACK ∨ h.typ = tLOST then leNat (h.body.take 4) else if h.typ = tSYNC then 4 else 32 * h.len32

/-- Send SRC a LOST packet for bytes of a discarded packet (R328, R336). The body also names the discarded packet's
type and destination (DESIGN CHOICE, log 50). None is sent for LOST and link-local packets. -/
def sendLost (s : State) (h : Pkt) (bytes : Nat) : State :=
  if h.typ = tLOST ∨ 0x30 ≤ h.typ then s
  else
    let s := s.bump rteBase RTE_LOSTCNT.COUNT RTE_LOSTCNT.WRAP 1
    inject s { dest := h.src, src := s.endpoint 19, typ := tLOST, cls := 1, xfer := h.xfer, collar := h.collar,
               status := stLinkLost, last := true, body := leBytes 4 bytes ++ [h.typ] ++ leBytes 3 h.dest }

/-- A packet whose path crosses a bridge out of service is discarded (R538): an ACK of the router completes its bytes with
DEV_FAIL. A collective learns of it as of a lost packet, and a telemetry packet is not answered (DESIGN CHOICE, log 113). -/
def sendDevFail (s : State) (h : Pkt) (bytes : Nat) : State :=
  if 0x10 ≤ h.typ ∧ h.typ < 0x20 then sendLost s h bytes
  else if h.typ = tTELRQ ∨ h.typ = tTELRP then s
  else inject s { dest := h.src, src := h.src, typ := tACK, cls := 1, xfer := h.xfer, collar := h.collar, status := 9,
                  last := h.last, inPort := 27, body := leBytes 4 bytes }

/-- Does the way of a packet through this device to a port cross a bridge out of service (R21): from the port of arrival, from
the unit that injects it, or for data of an HBM from the stacks that hold them. Packets of the router itself start at the port. -/
def State.transitFails (s : State) (inPort : Nat) (h : Pkt) (n : Nat) : Bool :=
  s.bridges != 0 &&
    (if inPort < 8 then s.wayFails (portStop inPort) (portStop n)
     else if h.inPort = 27 then false
     else if h.typ = tRDDATA ∧ 40 ≤ h.inPort then
       (List.range (h.len32 / 8 + 2)).any (fun i =>
         let x := h.addr / 256 * 256 + 256 * i
         decide (x < h.addr + 32 * h.len32) && s.wayFails (s.dstStop x) (portStop n))
     else s.wayFails (entryStop h.inPort) (portStop n))

/-- Owe the upstream end of a port one credit; at 8 they are returned (R321). -/
def sendCredits (s : State) (key : Nat) : State :=
  let n := tgetD s.rte.owed key 0
  if n = 0 then s
  else
    let s := { s with rte := { s.rte with owed := tdel s.rte.owed key, owedAt := tdel s.rte.owedAt key } }
    sendLocal s (key / 21) { typ := tCREDIT, src := s.endpoint 19, last := true, body := [key % 21, n] }

def oweCredit (s : State) (key : Nat) : State :=
  if 168 ≤ key then s
  else
    let n := tgetD s.rte.owed key 0 + 1
    let at_ := if n = 1 then tset s.rte.owedAt key s.nclk else s.rte.owedAt
    let s := { s with rte := { s.rte with owed := tset s.rte.owed key n, owedAt := at_ } }
    if 8 ≤ n then sendCredits s key else s

/-- The event of R321: 128 NCLK after the first pending return of a VC. -/
def creditDelay (s : State) (key : Nat) : State :=
  match tget s.rte.owedAt key with
  | some t => if t + 128 ≤ s.nclk then sendCredits s key else s
  | none => s

/-- CREDIT arrives on a port (R321). -/
def recvCredits (s : State) (n : Nat) (p : Pkt) : State :=
  let k := vcKey n (p.body.getD 0 0 % 21)
  { s with rte := { s.rte with used := tput s.rte.used k 0 (tgetD s.rte.used k 0 - p.body.getD 1 0) } }

/-- Take one flit from the front of an input VC. -/
def popFlit (s : State) (key : Nat) : State :=
  let q := (tgetD s.rte.inq key []).drop 1
  oweCredit { s with rte := { s.rte with inq := if q.isEmpty then tdel s.rte.inq key else tset s.rte.inq key q } } key

/-- A later flit of a packet that is injected again stands behind those of the packet that wait, or in front when all of them
have gone. -/
def insertVia (tag : Nat) (f : Payload) (q : List Payload) : List Payload :=
  let i := (List.range q.length).foldl (fun m j => if (q.getD j {}).via = tag then j + 1 else m) 0
  q.take i ++ f :: q.drop i

/-- The end of a packet that was taken out of its VC: delivered to its unit, or discarded. An ABORT ends it with the bytes that
came before; of these, `passed` have been delivered (R332, R336). -/
def endDrain (s : State) (key : Nat) (r : Route) (abort : Bool) (p : Pkt) : State :=
  let bytes := (if abort then 224 * (r.sent - 1) + p.data.length else pktBytes r.hdr) - r.passed
  if r.port = 8 then deliverPkt s (if key < 168 then { p with inPort := key / 21 } else p)
  else if r.port = 9 then sendLost s r.hdr bytes
  else sendDevFail s r.hdr bytes

/-- Take the flits of a packet out of its VC, by the port of its route: 8, 9 and 13 end it here, and 12 moves them into an
injection VC. The tail ends it. -/
def drain : Nat → State → Nat → State
  | 0, s, _ => s
  | fuel + 1, s, key =>
    match tget s.rte.route key, tgetD s.rte.inq key [] with
    | some r, f :: _ =>
      if r.port = 12 then
        let tgt := 168 + r.vc
        let s := popFlit s key
        let q := insertVia (key + 1) { f with vc := r.vc, fidx := f.fidx - r.sent, via := key + 1 } (tgetD s.rte.inq tgt [])
        let s := { s with rte := { s.rte with inq := tset s.rte.inq tgt q } }
        let s := if f.tail then { s with rte := { s.rte with
            route := tdel s.rte.route key, since := tdel s.rte.since key } } else s
        let s := drain fuel s tgt
        if f.tail then s else drain fuel s key
      else if r.port ≠ 8 ∧ r.port ≠ 9 ∧ r.port ≠ 13 then s
      else if f.head && (tget s.rte.building key).isSome then s
      else
        let b := match f.hdr with
          | some h => { h with data := [] }
          | none => tgetD s.rte.building key { r.hdr with data := [] }
        let b := { b with data := b.data ++ f.data }
        let s := popFlit s key
        if f.tail then
          endDrain { s with rte := { s.rte with
            building := tdel s.rte.building key, route := tdel s.rte.route key, since := tdel s.rte.since key } } key r f.abort b
        else drain fuel { s with rte := { s.rte with building := tset s.rte.building key b } } key
    | _, _ => s

/-! Routes of head flits. -/

/-- What the router decides for a head flit. -/
inductive Hop where
  | eject
  | discard
  | go (port vc : Nat) (h : Pkt) (side turn esc : Bool)
deriving DecidableEq, Repr

/-- The escape route (R325): the productive port of the first unfinished axis, or a turn back when it is down. -/
def State.escRoute (s : State) (h : Pkt) (inPort : Nat) : Hop :=
  match s.unfinished h with
  | [] => .eject
  | a :: _ =>
    let vc := 3 * h.cls + 2
    let h' := { h with esc := true }
    match s.productive h inPort a with
    | none => .discard
    | some d =>
      match s.upPort a d with
      | some n => .go n vc (s.hop h' a d n) false false (!h.esc)
      | none =>
        if bitAt h.ut a then .discard
        else match s.upPort a (1 - d) with
          | some n => .go n vc (s.hop { h' with ut := setBitAt h.ut a } a (1 - d) n) false true (!h.esc)
          | none => .discard

/-- The adaptive VC of a hop on axis a (R324). -/
def adaptVc (h : Pkt) (a : Nat) : Nat := 3 * h.cls + (if bitAt h.dl a then 1 else 0)

/-- The axis whose adaptive port has most credits, ties in the order X, Y, Z, W. -/
def bestPort (s : State) (h : Pkt) : List (Nat × Nat × Nat) → Option (Nat × Nat × Nat)
  | [] => none
  | x :: r =>
    match bestPort s h r with
    | none => some x
    | some y => if s.credits y.2.2 (adaptVc h y.1) ≤ s.credits x.2.2 (adaptVc h x.1) then some x else some y

/-- The route of a head flit (R323 to R328, R390). -/
def State.routeOf (s : State) (h : Pkt) (inPort : Nat) : Hop :=
  let un := s.unfinished h
  if un.isEmpty then .eject
  else if 255 ≤ h.hops ∨ un.any (fun a => (s.productive h inPort a).isNone) then .discard
  else if h.esc then s.escRoute h inPort
  else
    let axes := un.filter (fun a => !(h.ssp && h.ssax == a))
    let cand := axes.filterMap (fun a =>
      match s.productive h inPort a with
      | some d => (s.upPort a d).map (fun n => (a, d, n))
      | none => none)
    let stage := cand.find? (fun x => inPort == 8 && h.axis == x.1 + 1 && decide (0 < s.credits x.2.2 (adaptVc h x.1)))
    let pick := match stage with
      | some x => some x
      | none => bestPort s h cand
    match pick, un with
    | some (a, d, n), _ => .go n (adaptVc h a) (s.hop h a d n) false false false
    | none, [a] =>
      let side := ((List.range 4).filter (fun q => q != a)).findSome? (fun q =>
        match s.upPort q 0, s.upPort q 1 with
        | some n, _ => some (q, 0, n)
        | none, some n => some (q, 1, n)
        | none, none => none)
      if s.bit rteBase RTE_CTRL.SSTEP_EN ∧ h.sstep < 2 ∧ axes = [a] then
        match side with
        | some (q, d, n) =>
          .go n (adaptVc h q) (s.hop { h with ssp := true, ssax := q, sstep := h.sstep + 1 } q d n) true false false
        | none => s.escRoute h inPort
      else s.escRoute h inPort
    | none, _ => s.escRoute h inPort

/-- Store a decision for the head of an input VC, with the counts of R340; a packet that ends here is taken out, and one whose
way crosses a bridge out of service is discarded (R538). -/
def setRoute (s : State) (key : Nat) (h : Pkt) (d : Hop) : State :=
  let via := match tgetD s.rte.inq key [] with
    | f :: _ => f.via
    | [] => 0
  let put := fun (s : State) (r : Route) =>
    { s with rte := { s.rte with
        route := tset s.rte.route key { r with via := via }
        since := if (tget s.rte.since key).isSome then s.rte.since else tset s.rte.since key s.nclk } }
  match d with
  | .eject => drain 4096 (put s { port := 8, vc := 0, hdr := h }) key
  | .discard => drain 4096 (put s { port := 9, vc := 0, hdr := h }) key
  | .go n vc h' side turn esc =>
    if s.transitFails (key / 21) h n then drain 4096 (put s { port := 13, vc := 0, hdr := h }) key
    else
    let s := put s { port := n, vc := vc, hdr := { h' with inPort := 0 } }
    let s := if side then s.bump rteBase RTE_SSTEPCNT.COUNT RTE_SSTEPCNT.WRAP 1 else s
    let s := if turn then s.bump rteBase RTE_UTCNT.COUNT RTE_UTCNT.WRAP 1 else s
    if esc then s.bump rteBase RTE_ESCCNT.COUNT RTE_ESCCNT.WRAP 1 else s

/-- The header of the head flit at the front of an input VC. -/
def State.frontHead (s : State) (key : Nat) : Option Pkt :=
  match tgetD s.rte.inq key [] with
  | f :: _ => f.hdr
  | [] => none

/-- A head flit is at the front of its VC and the router works out its route (R323). -/
def headFlit (s : State) (key : Nat) : State :=
  match s.frontHead key, tget s.rte.route key with
  | some h, none => setRoute s key h (s.routeOf h (key / 21))
  | _, _ => s

/-- A packet has waited ESC_WAIT NCLK at the front of its VC without a grant (R325; 0 acts as 1). -/
def escWait (s : State) (key : Nat) : State :=
  match s.frontHead key, tget s.rte.route key with
  | some h, some r =>
    if r.port < 8 ∧ !r.granted ∧ !h.esc ∧ tgetD s.rte.since key 0 + max 1 (s.rd rteBase RTE_CTRL.ESC_WAIT) ≤ s.nclk ∧
        !(isEsc r.vc) then
      setRoute s key h (s.escRoute h (key / 21))
    else s
  | _, _ => s

/-! Arbitration (R329). -/

/-- The key slot of a packet: that of its partition, or 8 without a Collar (R289). -/
def slotOfPkt (h : Pkt) : Nat :=
  if h.typ = tTELRQ ∨ h.typ = tTELRP ∨ 2 ^ 31 ≤ h.collar then 8 else h.collar / 2 ^ 28 % 8

/-- May the flit at the front of an input VC go to its output now (R321, R326): no other packet is on that VC, and there is
space. -/
def State.flitReady (s : State) (key : Nat) (r : Route) : Bool :=
  match tgetD s.rte.inq key [] with
  | [] => false
  | f :: _ =>
    if f.head && r.granted then false
    else if f.head then
      let busy := s.rte.route.any (fun x => x.1 != key && x.2.port == r.port && x.2.vc == r.vc && x.2.granted)
      let h := f.hdr.getD {}
      let same := decide (key < 168) && h.esc && s.portAxis (key / 21) == s.portAxis r.port
      !busy && s.headRoom h r.port r.vc same
    else r.granted && (isEsc r.vc || decide (0 < s.credits r.port r.vc))

/-- The input VCs that have a flit ready for a port. -/
def State.readyFor (s : State) (n : Nat) : List (Nat × Route) :=
  s.rte.route.filter (fun x => x.2.port == n && s.flitReady x.1 x.2 && s.slotFree n (slotOfPkt x.2.hdr))

/-- Weighted round robin: an item may go while its count of the round is below its weight; items of weight 0 go only when no
item of nonzero weight is ready. The counts after the choice. -/
def wrrPick (w : Nat → Nat) (ready : List Nat) (cnt : List Nat) : Option (Nat × List Nat) :=
  let heavy := ready.filter (fun k => w k != 0)
  let take := fun (k : Nat) (c : List Nat) =>
    (k, (List.range 9).map (fun j => c.getD j 0 + (if j = k then 1 else 0)))
  match heavy.find? (fun k => decide (cnt.getD k 0 < w k)), heavy, ready with
  | some k, _, _ => some (take k cnt)
  | none, k :: _, _ => some (take k [])
  | none, [], k :: _ => some (k, cnt)
  | none, [], [] => none

/-- Order within a class: the escape VC, then D1, then D0. -/
def subRank (vc : Nat) : Nat := 2 - vc % 3

/-- The best of several ready inputs of one class: by VC, then by longest wait. -/
def State.bestInput (s : State) : List (Nat × Route) → Option (Nat × Route)
  | [] => none
  | x :: r =>
    match s.bestInput r with
    | none => some x
    | some y =>
      let a := (subRank x.2.vc, tgetD s.rte.since x.1 0)
      let b := (subRank y.2.vc, tgetD s.rte.since y.1 0)
      if a.1 < b.1 ∨ (a.1 = b.1 ∧ a.2 ≤ b.2) then some x else some y

/-- Send the flit at the front of an input VC (R329), count it (R338) and take its credit. -/
def sendFrom (s : State) (n key : Nat) (r : Route) : State :=
  match tgetD s.rte.inq key [] with
  | [] => s
  | f :: _ =>
    let p : Payload := { f with vc := r.vc, via := 0, hdr := if f.head then some r.hdr else none }
    let s := popFlit s key
    let route := if f.tail then tdel s.rte.route key else tset s.rte.route key { r with granted := true, sent := r.sent + 1 }
    let since := if f.tail then tdel s.rte.since key else s.rte.since
    let k := vcKey n r.vc
    let s := { s with rte := { s.rte with
      route := route, since := since, used := tset s.rte.used k (tgetD s.rte.used k 0 + 1) } }
    let s := s.bump rteBase (RTE_FLITS.COUNT key) (RTE_FLITS.WRAP key) 1
    sendFlit s n (slotOfPkt r.hdr) false p

/-- The weights of an output port. -/
def State.share (s : State) (k : Nat) : Nat := s.rd rteBase (RTE_SHARE.SHARE k)
def State.vcWeight (s : State) (p c : Nat) : Nat := s.rd rteBase (RTE_VCW.W p c)

/-- The class that partition k sends next on port n, with the counts and the weights of the round: a round in which no ready class
may send any more ends, and the next one takes the weights then loaded (R329, R397). -/
def State.classPick (s : State) (n k : Nat) (classes : List Nat) : Option (Nat × List Nat × List Nat) :=
  let live := (List.range 7).map (s.vcWeight k)
  let w := tgetD s.rte.rrW (8 * n + k) live
  let cnt := tgetD s.rte.rrClass (8 * n + k) []
  let goes := classes.any (fun c => decide (cnt.getD c 0 < w.getD c 0))
  let w := if goes then w else live
  (wrrPick (fun c => w.getD c 0) classes (if goes then cnt else [])).map (fun x => (x.1, x.2, w))

/-- The choice of the two stages among the ready inputs of a port. -/
def chooseFlit (s : State) (n : Nat) : Option (State × Nat × Route) :=
  let ready := s.readyFor n
  match s.bestInput (ready.filter (fun x => slotOfPkt x.2.hdr == 8)) with
  | some (k, r) => some (s, k, r)
  | none =>
    let slots := (List.range 8).filter (fun k => ready.any (fun x => slotOfPkt x.2.hdr == k))
    match wrrPick s.share slots (tgetD s.rte.rrPart n []) with
    | none => none
    | some (k, cnt) =>
      let mine := ready.filter (fun x => slotOfPkt x.2.hdr == k)
      let classes := (List.range 7).filter (fun c => mine.any (fun x => x.2.vc / 3 == c))
      match s.classPick n k classes with
      | none => none
      | some (c, cc, w) =>
        match s.bestInput (mine.filter (fun x => x.2.vc / 3 == c)) with
        | none => none
        | some (key, r) =>
          some ({ s with rte := { s.rte with
            rrPart := tset s.rte.rrPart n cnt, rrClass := tset s.rte.rrClass (8 * n + k) cc
            rrW := tset s.rte.rrW (8 * n + k) w } }, key, r)

/-- A flit time of an output port (R286, R287, R322, R329): a rewind first, null flits while the retry buffer is full,
slot 8, then the chosen flit, or a null flit. While a notice is to be sent (R298), every other flit is a null flit that carries
it. -/
def flitTime (s : State) (n : Nat) : State :=
  if !(s.flows n) then s
  else
    let l := s.link n
    let s := s.setL n { l with llGap := min 8 (l.llGap + 1), noticed := false }
    match l.rewind with
    | some q => if l.noticeOut ≠ .none ∧ !l.noticed then sendNull s n else resendFlit s n q
    | none =>
      if l.full ∨ (l.noticeOut ≠ .none ∧ !l.noticed) then sendNull s n
      else
        match l.llOut with
        | p :: rest =>
          if 8 ≤ l.llGap ∧ s.slotFree n 8 then
            sendFlit (s.setL n { s.link n with llOut := rest, llGap := 1 }) n 8 false
              { vc := 31, head := true, tail := true, hdr := some p }
          else
            match chooseFlit s n with
            | some (s, key, r) => sendFrom s n key r
            | none => sendNull s n
        | [] =>
          match chooseFlit s n with
          | some (s, key, r) => sendFrom s n key r
          | none => sendNull s n

/-! Passing received payloads on (R292). -/

/-- One payload of an authenticated frame: a link-local packet joins the port's queue of 64 (R322) unless its type is unassigned
(R317), another flit its VC. What finds the queue full, which R322 says does not come to be, is dropped (DESIGN CHOICE,
log 137). -/
def passPayload (s : State) (n : Nat) (p : Payload) : State :=
  if p.vc = 31 then
    match p.hdr with
    | some h =>
      if localTyp h.typ && decide (64 ≤ (tgetD s.rte.llq n []).length) then s
      else if localTyp h.typ then { s with rte := { s.rte with llq := tset s.rte.llq n (tgetD s.rte.llq n [] ++ [h]) } }
      else s.bump rteBase RTE_BADPKT.COUNT RTE_BADPKT.WRAP 1
    | none => s
  else
    let key := vcKey n (p.vc % 21)
    let rx := tset s.rte.rxPkt key (if p.head then 1 else tgetD s.rte.rxPkt key 0 + 1)
    let s := { s with rte := { s.rte with rxPkt := if p.tail then tdel rx key else rx } }
    drain 4096 (enqueueFlits s key [p]) key

/-- Remove the first equal packet of a list. -/
def dropFirst (l : List Pkt) (p : Pkt) : List Pkt :=
  match l with
  | [] => []
  | x :: r => if x = p then r else x :: dropFirst r p

/-- Take a packet that reached a unit, or a link-local packet of a port, out of its queue. -/
def takeEjected (s : State) (p : Pkt) : State :=
  { s with rte := { s.rte with ejected := dropFirst s.rte.ejected p } }
def takeLocal (s : State) (n : Nat) (p : Pkt) : State :=
  let l := dropFirst (tgetD s.rte.llq n []) p
  { s with rte := { s.rte with llq := if l.isEmpty then tdel s.rte.llq n else tset s.rte.llq n l } }

/-- Take the first link-local packet of a type out of a port's queue. -/
def takeLocalTyp (s : State) (n typ : Nat) : State :=
  match (tgetD s.rte.llq n []).find? (fun p => p.typ == typ) with
  | some p => takeLocal s n p
  | none => s

/-! Link state and failures. -/

/-- An LSTATE packet about ring links: axis, first link, number of links after it, down, hops left, origin. -/
def lstatePkt (s : State) (a i h down left : Nat) (origin : Nat) : Pkt :=
  { typ := tLSTATE, src := s.endpoint 19, last := true, body := [0, a, i, h, down, left] ++ leBytes 3 origin }

/-- Flood the state of a port's link along every X, Y and Z ring through this device (R334, R560). -/
def floodPort (s : State) (n : Nat) (down : Bool) : State :=
  let p := lstatePkt s (s.portAxis n) (s.portLink n) (s.rd (lnkBase n) LNK_STAT.HOPS) (if down then 1 else 0) 2 s.coord
  forEach ((List.range 8).filter (fun m => s.portAxis m < 3)) s (fun s m => sendLocal s m p)

/-- The map exchange of R560. -/
def sendMaps (s : State) (n : Nat) : State :=
  sendLocal s n
    { typ := tLSTATE, src := s.endpoint 19, last := true,
      body := [1, s.rd rteBase RTE_LSMAP.XRING, s.rd rteBase RTE_LSMAP.YRING, s.rd rteBase RTE_LSMAP.ZRING] }

/-- Does a port of this device end or cover a link of an own ring. -/
def State.ownRing (s : State) (a j : Nat) : Bool :=
  (List.range 8).any (fun m => s.portAxis m == a &&
    (List.range (s.rd (lnkBase m) LNK_STAT.HOPS + 1)).any (fun k => (s.portLink m + k) % 4 == j))

/-- The ring map after the map of the peer at port n (R560; DESIGN CHOICE, log 114): each router knows its own links; of the
others, a router that joins the ring takes the peer's word for all, and one that was on it only for the peer's own links. -/
def State.mergeMap (s : State) (n peer : Nat) : Nat :=
  let a := s.portAxis n
  let own := s.rd rteBase (ringField a)
  let joins := (List.range 8).all (fun m => m == n || s.portAxis m != a || !(s.portUp m))
  let c := coordOn (s.rd (lnkBase n) LNK_PEER.COORD) a
  (List.range 4).foldl (fun x j =>
    let from_ := if s.ownRing a j then own else if joins || j == c || j == (c + 3) % 4 then peer else own
    if bitAt from_ j then x + 2 ^ j else x) 0

/-- LSTATE arrives on a port (R334, R560): a notice about a link of an own ring updates the map and goes on around the ring
on which it came; the peer's map joins the own one, on the ring that both share. -/
def recvLstate (s : State) (n : Nat) (p : Pkt) : State :=
  let b := p.body
  let a := b.getD 1 0
  match b.getD 0 0 with
  | 0 =>
    let origin := leNat (slice b 6 3)
    let own := decide (a < 3) && setCoordOn origin a 0 == setCoordOn s.coord a 0
    let s := if own then markRing s a (b.getD 2 0) (b.getD 3 0) (b.getD 4 0 == 1) else s
    let left := b.getD 5 0
    match s.portFor (s.portAxis n) (1 - s.portDir n) with
    | some m => if 0 < left ∧ s.portAxis n < 3 then
        sendLocal s m { p with src := s.endpoint 19, body := b.take 5 ++ [left - 1] ++ b.drop 6 } else s
    | none => s
  | _ =>
    let ax := s.portAxis n
    if ax < 3 then s.wr rteBase (ringField ax) (s.mergeMap n (b.getD (1 + ax) 0xF)) else s

/-- The NOTICE of the downstream end (R334): the expected number, the upstream end, its port, the failed axis, the bypass
axis. -/
def noticePkt (s : State) (n e : Nat) (q : Nat) : Pkt :=
  let b := lnkBase n
  { typ := tNOTICE, dest := s.rd b LNK_PEER.COORD * 32 + 19, src := s.endpoint 19, last := true, xfer := e,
    body := [s.rd b LNK_PEER.PORT, s.portAxis n, q] }

/-- The lowest-lettered axis other than a with an up port, and its port: + when that port is up, − otherwise. -/
def State.bypass (s : State) (a : Nat) : Option (Nat × Nat) :=
  ((List.range 4).filter (fun q => q != a)).findSome? (fun q =>
    match s.upPort q 0, s.upPort q 1 with
    | some n, _ => some (q, n)
    | none, some n => some (q, n)
    | none, none => none)

/-- Send a link-local packet one hop toward a coordinate on an axis. -/
def localToward (s : State) (p : Pkt) (a : Nat) : State :=
  let h : Pkt := { p with ut := 0 }
  match s.productive h 8 a with
  | some d =>
    match s.upPort a d with
    | some n => sendLocal s n p
    | none => match s.upPort a (1 - d) with
      | some n => sendLocal s n p
      | none => s
  | none => s

/-- The packets that the flits of a retry buffer belong to: each packet's header, first body index left, whether its head is
in the buffer, its flits in order. Heads that have left the buffer come from their copies (R335). -/
def packetsOf (heads : Tbl Pkt) : List Flit → List (Nat × Pkt × Bool × List Payload) → List (Nat × Pkt × Bool × List Payload)
  | [], done => done
  | f :: r, done =>
    let p := f.payload
    if f.pad ∨ f.slot = 8 ∧ p.vc = 31 then packetsOf heads r done
    else
      match p.hdr with
      | some h => packetsOf heads r (done ++ [(p.vc, h, true, [p])])
      | none =>
        if done.any (fun x => x.1 == p.vc && !(x.2.2.2.any (·.tail))) then
          packetsOf heads r (done.map (fun x =>
            if x.1 == p.vc && !(x.2.2.2.any (·.tail)) then (x.1, x.2.1, x.2.2.1, x.2.2.2 ++ [p]) else x))
        else packetsOf heads r (done ++ [(p.vc, tgetD heads p.vc {}, false, [p])])

/-- A packet formed again from body flits of index k on (R335): its header advanced by 224 bytes for each flit passed. -/
def advanced (h : Pkt) (k : Nat) : Pkt :=
  { h with addr := h.addr + 224 * (k - 1), len32 := h.len32 - 7 * (k - 1) }

/-- A body flit of a packet formed again: `shift` flits before it have been delivered. -/
def shiftFlit (vc shift via : Nat) (f : Payload) : Payload := { f with vc := vc, fidx := f.fidx - shift, via := via }

/-- The packet that goes on from what a retry buffer holds of it, or from the flits that have been sent when it holds none
(R335): the header to inject, which enters at the failed port n, and by how much the indices of its flits fall. -/
def goesOn (n : Nat) (heads : Tbl Pkt) (vc sent : Nat) (x : Option (Nat × Pkt × Bool × List Payload)) : Pkt × Nat :=
  let (h, k) := match x with
    | some x => (x.2.1, if x.2.2.1 then 1 else (x.2.2.2.headD {}).fidx)
    | none => (tgetD heads vc {}, sent)
  ({ advanced h k with inPort := n }, k - 1)

/-- The injection VC of a header. -/
def injectVc (h : Pkt) : Nat := 3 * h.cls + (if h.esc then 2 else 0)

/-- The flits of a packet formed again: its head, and the body flits that the retry buffer holds. -/
def formed (h : Pkt) (shift via : Nat) (x : Option (Nat × Pkt × Bool × List Payload)) : List Payload :=
  let body := ((x.map (·.2.2.2)).getD []).filter (fun f => !f.head)
  { vc := injectVc h, head := true, tail := body.isEmpty && (x.map (fun y => y.2.2.2.any (·.tail))).getD false, hdr := some h,
    via := via } :: body.map (shiftFlit (injectVc h) shift via)

/-- A packet that is whole in the retry buffer from some flit on is injected again. -/
def reinject (s : State) (n : Nat) (heads : Tbl Pkt) (x : Nat × Pkt × Bool × List Payload) : State :=
  let (h, shift) := goesOn n heads x.1 0 (some x)
  enqueueFlits s (168 + injectVc h) (formed h shift 0 (some x))

/-- A packet that was partly sent on output VC vc of the failed port n from input VC `key` (R335): it is injected again, and
the flits that have not been sent follow it. One that came from an injection VC takes its place behind what waits there, as the
other packets do. -/
def rehome (s : State) (n key vc : Nat) (heads : Tbl Pkt) (x : Option (Nat × Pkt × Bool × List Payload)) : State :=
  match tget s.rte.route key with
  | none => s
  | some r =>
    let (h, shift) := goesOn n heads vc r.sent x
    let tgt := 168 + injectVc h
    if key < 168 then
      let s := enqueueFlits s tgt (formed h shift (key + 1) x)
      drain 4096 { s with rte := { s.rte with
        route := tset s.rte.route key { port := 12, vc := injectVc h, hdr := h, sent := shift } } } key
    else
      let q := tgetD s.rte.inq key []
      let body := q.takeWhile (fun f => !f.head)
      let rest := q.drop body.length
      let all := formed h shift r.via x ++ body.map (shiftFlit (injectVc h) shift r.via)
      let inq := if tgt = key then tset s.rte.inq key (rest ++ all)
        else tset (tset s.rte.inq key rest) tgt (tgetD s.rte.inq tgt [] ++ all)
      let route := tdel s.rte.route key
      -- flits that still come from an input VC follow the packet
      let route := match r.via, tget route (r.via - 1) with
        | _ + 1, some o => tset route (r.via - 1) { o with vc := injectVc h, sent := o.sent + shift }
        | _, _ => route
      { s with rte := { s.rte with inq := inq, route := route, since := tdel s.rte.since key } }

/-- A NOTICE reaches the upstream end of a failed link (R335): the flits below e are dropped, and the rest is injected again
in the original order: the packets whose heads lie below e, in the order of these, then the others. -/
def noticeHere (s : State) (n e : Nat) : State :=
  match s.rte.fails.find? (fun f => f.port == n) with
  | none => if s.lkState n = lkACTIVE then { s with rte := { s.rte with early := tset s.rte.early n e } } else s
  | some fr =>
    let gone := (fr.buf.map (·.2)).filter (fun f => seqLt f.seq e)
    let left := (fr.buf.map (·.2)).filter (fun f => !(seqLt f.seq e))
    let heads := gone.foldl (fun h f => keepHead h f.payload) fr.heads
    let pk := packetsOf heads left []
    let isOpen := fun (x : Nat × Pkt × Bool × List Payload) => !(x.2.2.2.any (·.tail))
    let s := { s with rte := { s.rte with fails := s.rte.fails.filter (fun f => f.port != n) } }
    let goOn := fun (s : State) x =>
      match isOpen x, tget fr.keys x.1 with
      | true, some key => rehome s n key x.1 heads (some x)
      | _, _ => reinject s n heads x
    let s := forEach heads s (fun s h =>
      match pk.find? (fun x => x.1 == h.1 && !x.2.2.1), tget fr.keys h.1 with
      | some x, _ => goOn s x
      -- the buffer holds no flit of the packet any more
      | none, some key => rehome s n key h.1 heads none
      | none, none => s)
    let s := forEach (pk.filter (fun x => x.2.2.1)) s goOn
    let s := s.wr rteBase RTE_FAIL.NOTICED 1
    s.wr rteBase RTE_FAIL.REINJ (pk.foldl (fun c x => c + x.2.2.2.length) 0)

/-- Declare the failure of a port (R334, R336, R337): maps, flood, ABORT tails, NOTICE, event, and the record of what waits
for the peer's NOTICE, which acts at once when it has come already. -/
def declareFail (s : State) (n : Nat) : State :=
  let l := s.link n
  let e := l.ack
  let s := s.wr rteBase RTE_FAIL.PORT n
  let s := (s.wr rteBase RTE_FAIL.VALID 1).wr rteBase RTE_FAIL.NOTICED 0
  let s := (s.wr rteBase RTE_FAIL.REINJ 0).wr rteBase RTE_FAIL.DISC 0
  let s := s.wr rteBase RTE_FAILTIME.TIME s.ns
  let part := s.rte.route.filter (fun x => x.2.port == n && x.2.granted)
  let keys := part.foldl (fun t x => tset t x.2.vc x.1) []
  let route := (s.rte.route.filter (fun x => x.2.port != n || x.2.granted)).map (fun x =>
    if x.2.port = n then (x.1, { x.2 with port := 10 }) else x)
  let fr : FailRec := { port := n, time := s.clock, buf := l.retry, heads := l.heads, keys := keys }
  let early := tget s.rte.early n
  let s := { s with rte := { s.rte with
    route := route, fails := s.rte.fails.filter (fun f => f.port != n) ++ [fr], early := tdel s.rte.early n
    used := s.rte.used.filter (fun x => x.1 / 21 != n), owed := s.rte.owed.filter (fun x => x.1 / 21 != n)
    owedAt := s.rte.owedAt.filter (fun x => x.1 / 21 != n) } }
  let s := markPort s n true
  let s := floodPort s n true
  let s := forEach (s.rte.rxPkt.filter (fun x => x.1 / 21 == n)) s (fun s x =>
    passPayload s n { vc := x.1 % 21, tail := true, abort := true, fidx := x.2 })
  let s := match s.bypass (s.portAxis n) with
    | some (q, m) => sendLocal s m (noticePkt s n e q)
    | none => s
  let s := raiseEv s .rtePortDown none { subj := n }
  match early with
  | some x => noticeHere s n x
  | none => s

/-- NOTICE arrives on a port (R334, R335): relayed along the failed axis, then back on the bypass axis. -/
def recvNotice (s : State) (p : Pkt) : State :=
  let a := p.body.getD 1 0
  let q := p.body.getD 2 0
  if p.dest / 32 = s.coord then noticeHere s (p.body.getD 0 0) p.xfer
  else if coordOn (p.dest / 32) a ≠ coordOn s.coord a then localToward s p a
  else localToward s p q

/-- The rest of a packet that was partly sent on a failed link is discarded (R336): `passed` of its bytes have been delivered.
Its LOST goes with its tail. -/
def dropOpen (s : State) (key passed : Nat) : State :=
  match tget s.rte.route key with
  | none => s
  | some r =>
    let lost : Route := { r with port := 9, passed := passed }
    if key < 168 ∨ r.via = 0 then drain 4096 { s with rte := { s.rte with route := tset s.rte.route key lost } } key
    else
      -- the later flits of the packet come from the input VC `via` − 1
      let body := (tgetD s.rte.inq key []).takeWhile (fun f => !f.head)
      if body.any (·.tail) then drain 4096 { s with rte := { s.rte with route := tset s.rte.route key lost } } key
      else
        let s := { s with rte := { s.rte with
          inq := tset s.rte.inq key ((tgetD s.rte.inq key []).drop body.length), since := tdel s.rte.since key
          route := tset (tdel s.rte.route key) (r.via - 1) { lost with sent := r.sent + body.length } } }
        drain 4096 s (r.via - 1)

/-- No NOTICE within NOTICE_WAIT µs (R336; 0 acts as 1): the retry buffer is discarded with LOST packets. -/
def noticeWait (s : State) (n : Nat) : State :=
  match s.rte.fails.find? (fun f => f.port == n) with
  | none => s
  | some fr =>
    if s.clock < fr.time + usUnits (max 1 (s.rd rteBase RTE_CTRL.NOTICE_WAIT)) then s
    else
      let pk := packetsOf fr.heads (fr.buf.map (·.2)) []
      let isOpen := fun (x : Nat × Pkt × Bool × List Payload) => !(x.2.2.2.any (·.tail))
      -- the bytes of a packet whose flits the peer has acknowledged
      let acked := fun (x : Nat × Pkt × Bool × List Payload) => if x.2.2.1 then 0 else 224 * ((x.2.2.2.headD {}).fidx - 1)
      let s := { s with rte := { s.rte with fails := s.rte.fails.filter (fun f => f.port != n) } }
      let s := forEach (pk.filter (fun x => !(isOpen x && (tget fr.keys x.1).isSome))) s (fun s x =>
        let whole := if x.2.2.2.any (·.abort) then 224 * ((x.2.2.2.getLastD {}).fidx - 1) else pktBytes x.2.1
        sendLost s x.2.1 (whole - acked x))
      let s := forEach fr.keys s (fun s k =>
        let sent := ((tget s.rte.route k.2).map (·.sent)).getD 0
        dropOpen s k.2 (match pk.find? (fun x => isOpen x && x.1 == k.1) with
          | some x => acked x
          | none => 224 * (sent - 1)))
      let count := (pk.filter (fun x => !(isOpen x && (tget fr.keys x.1).isSome))).length + fr.keys.length
      let s := s.wr rteBase RTE_FAIL.DISC count
      raiseEv s .rteNoticeTimeout none { subj := n, detail := count }

/-! Telemetry. -/

/-- The histogram bin of an occupancy (R338). -/
def histBin (n : Nat) : Nat := if n = 0 then 0 else min 7 (if n < 4 then 1 else Nat.log2 n)

/-- One sample of every VC's occupancy; 0 acts as a period of 1. -/
def histSample (s : State) : State :=
  if s.rte.sampled + max 1 (s.rd rteBase RTE_TELCTRL.PERIOD) ≤ s.nclk then
    let s := { s with rte := { s.rte with sampled := s.nclk } }
    forEach (List.range 189) s (fun s v =>
      let b := histBin (tgetD s.rte.inq v []).length
      s.bump rteBase (RTE_HIST.COUNT v b) (RTE_HIST.WRAP v b) 1)
  else s

/-- The ten counters of a port and VC, in their register order. -/
def telFields (v : Nat) : List (Field × Field) :=
  (List.range 8).map (fun b => (RTE_HIST.COUNT v b, RTE_HIST.WRAP v b)) ++
    [(RTE_STALL.COUNT v, RTE_STALL.WRAP v), (RTE_FLITS.COUNT v, RTE_FLITS.WRAP v)]

/-- The same field of the snapshot bank. -/
def snapField (f : Field) : Field := { f with off := f.off + 0x10000 }

/-- Fabric time reaches RTE_TSNAP: every counter is copied at once (R338). -/
def telSnapshot (s : State) : State :=
  let t := s.rd rteBase RTE_TSNAP.TIME
  if t ≠ 0 ∧ t ≤ s.ns ∧ s.rte.snapAt ≠ t then
    let s := { s with rte := { s.rte with snapAt := t } }
    let s := forEach (List.range 189) s (fun s v => forEach (telFields v) s (fun s f =>
      (s.wr rteBase (snapField f.1) (s.rd rteBase f.1)).wr rteBase (snapField f.2) (s.rd rteBase f.2)))
    s.wr rteBase RTE_TELCTRL.SNAP_DONE 1
  else s

/-- The stall counters of one NCLK (R338): heads that have a route and no grant. -/
def stallTick (s : State) : State :=
  forEach (s.rte.route.filter (fun x => x.2.port < 8 && !x.2.granted)) s (fun s x =>
    s.bump rteBase (RTE_STALL.COUNT x.1) (RTE_STALL.WRAP x.1) 1)

/-- TELEM_RQ (R339): answered only to a host port's request with the fabric-manager mark. -/
def recvTelRq (s : State) (p : Pkt) : State :=
  let b := p.body
  if p.src % 32 = 16 ∧ b.getD 3 0 = 1 ∧ b.getD 0 0 ≤ 8 ∧ b.getD 1 0 < 21 then
    let v := vcKey (b.getD 0 0) (b.getD 1 0)
    let word := fun (f : Field × Field) =>
      let g := if b.getD 2 0 = 1 then (snapField f.1, snapField f.2) else f
      leBytes 8 (s.rd rteBase g.1 + s.rd rteBase g.2 * 2 ^ 63)
    inject s { dest := p.src, src := s.endpoint 19, typ := tTELRP, cls := 1, xfer := p.xfer, last := true,
               body := ((telFields v).map word).foldr (· ++ ·) [] }
  else s.bump rteBase RTE_BADPKT.COUNT RTE_BADPKT.WRAP 1

end Sys2Proof.Machine
end

