-- ==== Sys2Proof/Machine/Train.lean ====
section
/-! DEFINITION. Link training, holds and failures (09_fabric_links.md, R288, R300 to R312, R558, R559), and frames as they
pass from the link to the router (R292). -/

namespace Sys2Proof.Machine

/-- A link enters a state. -/
def enterLink (s : State) (n st : Nat) : State :=
  (s.wr (lnkBase n) LNK_STAT.STATE st).setL n { s.link n with entered := s.clock }

/-- May a port leave DISABLED (R300, R301). -/
def State.portOn (s : State) (n : Nat) : Bool :=
  let b := lnkBase n
  s.bit b LNK_CFG.EN && s.bit b LNK_COORD.VALID && !(s.bit b LNK_CTRL.DISABLE)

/-- A link enters DETECT, which clears RETRAIN (R313); a port that is not enabled stays in DISABLED. -/
def toDetect (s : State) (n : Nat) : State :=
  if s.portOn n then enterLink (s.wr (lnkBase n) LNK_CTRL.RETRAIN 0) n lkDETECT else enterLink s n lkDISABLED

/-- The traffic of a link that leaves CONFIRM or ACTIVE. -/
def clearLink (s : State) (n : Nat) : State :=
  let l := s.link n
  let b := lnkBase n
  let s := (s.wr b LNK_STAT.TXW 0).wr b LNK_STAT.RXW 0
  let s := (s.wr b LNK_STAT.TXMASK 0).wr b LNK_STAT.RXMASK 0
  let s := s.wr b LNK_REKEY.BUSY 0
  s.setL n { l with
    retry := [], rewind := none, nakOut := false, rxHeld := [], rxAuth := [], rxDrop := false, newMask := none
    noticeOut := .none, llOut := [], llGap := 8, heads := [], keyOld := false, rxOld := false, keys := [], kx := none
    rxCnt := [], rxPh := []
    slots := l.slots.map (fun x => (x.1, { x.2 with fpos := 0, switch := false })) }

/-- The device enters HOLDOVER (R421): the counter runs free on the reference. -/
def holdover (s : State) : State :=
  let s := s.wr trcBase TRC_TSTAT.STATE 3
  let s := { s with tsync := { s.tsync with since := none, slew := 0 } }
  raiseEv s .trcHoldover none { detail := s.rd trcBase TRC_TSTAT.OFFSET }

/-- The parent link of a device that is LOCKED or locking is lost (R421; that a device which locks for the first time enters
HOLDOVER too is DEDUCED, log 136). -/
def parentLost (s : State) (n : Nat) : State :=
  let st := s.rd trcBase TRC_TSTAT.STATE
  if (st = 1 ∨ st = 2) ∧ s.bit trcBase TRC_TCTRL.PVALID ∧ s.rd trcBase TRC_TCTRL.PARENT = n ∧
      !(s.bit trcBase TRC_TCTRL.MASTER) then holdover s else s

/-- A link leaves its state with a reason (R311, R312): a departure from ACTIVE is a failure for the router, counts and
raises LNK_DOWN. -/
def leaveLink (s : State) (n reason : Nat) : State :=
  let b := lnkBase n
  let act := s.lkState n == lkACTIVE
  let s := s.wr b LNK_STAT.REASON reason
  let s := if act then
      let s := parentLost (declareFail s n) n
      raiseEv (s.bump b LNK_DOWNS.COUNT LNK_DOWNS.WRAP 1) .lnkDown none { subj := n, detail := reason }
    else s
  clearLink s n

/-- A failure that retrains: BACKOFF for 1 ms, doubling up to 1 s with each further failure (R311). -/
def linkFail (s : State) (n reason : Nat) : State :=
  let s := leaveLink s n reason
  let l := s.link n
  enterLink (s.setL n { l with wait := l.backoff, backoff := min 1000 (2 * l.backoff) }) n lkBACKOFF

/-- A link is held (R303 to R307). -/
def linkHold (s : State) (n reason : Nat) : State :=
  let s := enterLink (leaveLink s n reason) n lkHELD
  raiseEv s .lnkHeld none { subj := n, detail := reason }

/-- Is a port in a training state. -/
def State.training (s : State) (n : Nat) : Bool := decide (lkPHY ≤ s.lkState n) && decide (s.lkState n ≤ lkCONFIRM)

/-- The NCLK in which 5 µs after a time first have passed. -/
def failNclk (t : Nat) : Nat := (t + usUnits 5 + 2) / 3

/-- Has no good flit arrived for 5 µs. -/
def State.silent (s : State) (n : Nat) : Bool := decide ((s.link n).lastGood + usUnits 5 ≤ s.clock)

/-- ACK_TIMEOUT (R288): when both conditions first held in the same NCLK, or silence came first, the reason is NO_SIGNAL. -/
def ackTimeout (s : State) (n : Nat) : State :=
  match (s.link n).retry with
  | [] => s
  | (t, _) :: _ =>
    if s.flows n ∧ t + usUnits 5 ≤ s.clock then
      linkFail s n (if s.silent n ∧ failNclk (s.link n).lastGood ≤ failNclk t then rsNoSignal else rsAckTimeout)
    else s

/-- NO_SIGNAL (R288, R559): 5 µs without a good flit while flits flow; loss of signal in an earlier training state. -/
def noSignal (s : State) (n : Nat) : State :=
  if s.flows n then (if s.silent n then linkFail s n rsNoSignal else s)
  else if s.training n then linkFail s n rsNoSignal
  else s

/-- A bad lane of an active direction (R298, R297), from IDENT on. -/
def laneBadEv (s : State) (n lane : Nat) : State :=
  if s.lanesOn n ∧ bitAt (s.rd (lnkBase n) LNK_STAT.RXMASK) lane then
    match laneBad s n lane with
    | some s' => s'
    | none => linkFail s n rsWidth
  else s

/-- The frame of a slot is complete and its tag has been checked (R292). -/
def recvFrame (s : State) (n slot : Nat) (ok : Bool) : State :=
  let l := s.link n
  if s.flows n && l.frameHeld slot then
    if ok then
      let fl := (l.slotHeld slot).take 16
      let s := s.setL n ((l.passFrame slot).countFrame slot (fl.headD {}).kph)
      forEach (fl.filter (fun f => !f.pad)) s (fun s f => passPayload s n f.payload)
    else linkFail s n rsAuth
  else s

/-! Training. -/

def signalDetect (s : State) (n : Nat) : State :=
  if s.lkState n = lkDETECT then enterLink (s.setL n { s.link n with trainStart := s.clock }) n lkPHY else s

/-- PHY_TRAIN ends: the hop count of the training patterns is read (R309). A count that differs from that of the last training
tells that the loss before it was a through-path that closed or opened (R310, R312; log 62). -/
def phyDone (s : State) (n hops : Nat) : State :=
  let b := lnkBase n
  if s.lkState n = lkPHY then
    let h := hops % 8
    let r := s.rd b LNK_STAT.REASON
    let s := if (s.link n).hops.isSome ∧ (s.link n).hops ≠ some h ∧ (r = rsNoSignal ∨ r = rsAckTimeout) then
        s.wr b LNK_STAT.REASON rsTpChange else s
    enterLink ((s.wr b LNK_STAT.HOPS hops).setL n { s.link n with hops := some h }) n lkALIGN
  else s

/-- ALIGN ends: the receive mask is chosen from the good lanes (R297), the transmit mask by the peer. The port sends its own
identity record (R302). -/
def alignDone (s : State) (n good txMask : Nat) : State :=
  let b := lnkBase n
  if s.lkState n = lkALIGN then
    match chooseMask (good % 4096) (s.rd b LNK_CFG.MAXW) with
    | none => linkFail s n rsWidth
    | some m =>
      let s := s.setL n { s.link n with good := good % 4096 }
      let s := (s.wr b LNK_STAT.RXMASK m).wr b LNK_STAT.RXW (widthCode m)
      let s := (s.wr b LNK_STAT.TXMASK txMask).wr b LNK_STAT.TXW (widthCode (txMask % 4096))
      (enterLink s n lkIDENT).emit (.ident n (s.identBytes n))
  else s

/-- The identity record of R302 as its fields: peer coordinate, port, logical byte, levels, base image, unique ID. -/
structure Ident24 where
  coord : Nat
  port : Nat
  logical : Nat
  link : Nat
  coll : Nat
  image : Nat
  uid : Nat
deriving DecidableEq, Repr

def identOf (b : List Nat) : Ident24 :=
  { coord := leNat (slice b 4 4) / 32 % 2 ^ 19, port := b.getD 8 0 % 8, logical := b.getD 9 0 % 16, link := b.getD 10 0,
    coll := b.getD 11 0, image := leNat (slice b 12 4), uid := leNat (slice b 16 8) }

/-- Does the peer lie at distance h + 1 in a direction (R303, R304); on a chain without the modulus, among its n devices
(R558). -/
def State.peerAt (s : State) (n a d : Nat) (peer : Nat) : Bool :=
  let h := s.rd (lnkBase n) LNK_STAT.HOPS
  let size := s.axisSize a
  let own := coordOn s.coord a
  let far := coordOn peer a
  let (x, y) := if d = 0 then (own, far) else (far, own)
  if a = 3 ∧ s.bit (lnkBase n) LNK_COORD.WCHAIN then x + h + 1 == y && decide (y < size)
  else (y + size - x % size) % size == h + 1

/-- The effective direction of a port with a peer, or none when the port is held (R303 steps 3 and 4, R304). -/
def State.orient (s : State) (n : Nat) (r : Ident24) : Option Nat :=
  let b := lnkBase n
  let a := s.rd b LNK_CFG.AXIS
  let d := s.rd b LNK_CFG.DIR
  if s.bit b LNK_CFG.AUTO then
    let p := s.peerAt n a 0 r.coord
    let m := s.peerAt n a 1 r.coord
    let dir := if p && m then some d else if p then some 0 else if m then some 1 else none
    match dir with
    | none => none
    | some e =>
      -- a port in IDENT holds a direction when it is fixed: one that orients itself takes it from its peer's record
      let holds := fun (k : Nat) =>
        if s.lkState k = lkIDENT then !(s.bit (lnkBase k) LNK_CFG.AUTO) && s.rd (lnkBase k) LNK_CFG.DIR == e &&
          decide ((s.link k).entered ≤ (s.link n).entered)
        else s.portDir k == e && decide (lkIDENT < s.lkState k) && decide (s.lkState k ≤ lkACTIVE)
      if (List.range 8).any (fun k => k != n && s.rd (lnkBase k) LNK_CFG.AXIS == a && holds k) then none else some e
  else if r.logical / 4 % 2 = 1 - d ∧ s.peerAt n a d r.coord then some d
  else none

/-- The peer's identity record arrives in IDENT and is checked in the order of R303 to R305; another base image only raises its
event (R306). A record of another format is no identity record (log 111). A port that passes enters AUTH and opens its key
exchange. -/
def identRecord (s : State) (n : Nat) (bytes : List Nat) : State :=
  let b := lnkBase n
  let r := identOf bytes
  if s.lkState n ≠ lkIDENT ∨ leNat (slice bytes 0 4) ≠ 1 then s
  else
    let s := s.setL n { s.link n with peer := fit 24 bytes }
    let s := (s.wr b LNK_PEER.COORD r.coord).wr b LNK_PEER.PORT r.port
    let s := (s.wr b LNK_PEER.LOGICAL r.logical).wr b LNK_PEER.UID_LO r.uid
    let s := s.wr b LNK_PEERIMG.ID r.image
    let s := if r.image ≠ s.rd shapeBase SHAPE_ID.ID ∧ s.bit b LNK_CTRL.IMG_EVT then
        raiseEv s .lnkImageDiff none { subj := n, detail := r.image }
      else s
    let a := s.rd b LNK_CFG.AXIS
    let own := s.coord
    if r.coord = own then linkHold s n rsLoop
    else if setCoordOn r.coord a 0 ≠ setCoordOn own a 0 ∨ r.logical % 4 ≠ a then linkHold s n rsWrongPeer
    else
      match s.orient n r with
      | none => linkHold s n rsWrongPeer
      | some e =>
        let s := s.wr b LNK_STAT.EDIR e
        let s := s.wr b LNK_STAT.SWAPPED (if e = s.rd b LNK_CFG.DIR then 0 else 1)
        let s := if e = s.rd b LNK_CFG.DIR then s else raiseEv s .lnkSwap none { subj := n, detail := e }
        let lk := s.rd b LNK_LEVEL.LINK
        let cl := s.rd b LNK_LEVEL.COLL
        let far := fun (x y : Nat) => decide (x + 1 < y) || decide (y + 1 < x)
        if far lk r.link || far cl r.coll then linkHold s n rsLevel
        else
          let s := (s.wr b LNK_LEVEL.ALINK (min lk r.link)).wr b LNK_LEVEL.ACOLL (min cl r.coll)
          -- in the debug state a port that reaches AUTH is held (R452)
          if s.bit knlBase KNL_STATE.DEBUG then linkHold (enterLink s n lkAUTH) n rsAuthFail
          else beginKx (enterLink s n lkAUTH) n true

/-- A link starts its traffic: sequences at 0 (R284), counters at 0 (R290); the masks of ALIGN stay. -/
def startFlow (s : State) (n : Nat) : State :=
  let b := lnkBase n
  let s := forEach (List.range 9) s (fun s k => (s.wr b (LNK_FCNT.COUNT k) 0).wr b (LNK_FCNT.KPH k) 0)
  s.setL n { s.link n with
    txSeq := 0, rxExpect := 0, retry := [], rewind := none, nakOut := false, rxHeld := [], rxAuth := [], rxDrop := false
    slots := [], heads := [], llOut := [], llGap := 8, lastGood := s.clock, keyOld := false, rxOld := false
    rxCnt := [], rxPh := [] }

/-- AUTH ends (R293, R300, R302, R438): fresh keys in every slot, and the slot-8 frame of CONFIRM is sent. `ok` says whether the
peer's chain leads to the root. A failed check holds the link; nothing ends before the peer's part has come. -/
def authDone (s : State) (n : Nat) (ok : Bool) : State :=
  if s.lkState n ≠ lkAUTH then s
  else if !ok then linkHold s n rsAuthFail
  else
    match (s.link n).kx with
    | none => s
    | some x =>
      if !x.full then s
      else if !(x.good (s.link n).peer) then linkHold s n rsAuthFail
      else
        let s := countRekey (s.wr (lnkBase n) LNK_REKEY.REQ 0) n
        let s := enterLink (installKeys (startFlow s n) n x 0) n lkCONFIRM
        forEach (List.range 16) s (fun s _ => sendFlit s n 8 true {})

/-- A rekey completes (R294, R438): the peer's part has come and holds, with the identity key of the training and a chain
that leads to the root, as the chain of the training did; otherwise the link is held with AUTH_FAIL. -/
def rekeyDone (s : State) (n : Nat) : State :=
  match (s.link n).kx with
  | none => s
  | some x =>
    if s.lkState n = lkACTIVE ∧ s.bit (lnkBase n) LNK_REKEY.BUSY ∧ x.full then
      let l := s.link n
      if x.good l.peer ∧ x.peerKey = l.peerKey ∧ (x.peerChain = l.peerChain ∨ Config.chainHolds (caereoDigest Config.rootKey) x.peerChain) then switchKeys s n x
      else linkHold s n rsAuthFail
    else s

/-- Has a slot-8 frame been authenticated in each direction (R300): the peer's has passed, and the peer has acknowledged all of
this end's first frame. -/
def Link.confirmed (l : Link) : Bool :=
  decide (1 ≤ tgetD l.rxCnt 8 0) && decide (16 ≤ l.txSeq) && l.retry.all (fun e => decide (16 ≤ e.2.seq))

/-- CONFIRM ends: the link is ACTIVE, the router may use it, and the maps learn it (R300, R560). A rekey asked for since the
training's exchange starts (R294). -/
def confirmDone (s : State) (n : Nat) : State :=
  if s.lkState n = lkCONFIRM ∧ (s.link n).confirmed then
    let s := enterLink s n lkACTIVE
    let s := markPort s n false
    let s := floodPort s n false
    let s := sendMaps s n
    let w := s.rd (lnkBase n) LNK_STAT.TXW + 4 * s.rd (lnkBase n) LNK_STAT.RXW
    let s := raiseEv s .lnkUp none { subj := n, detail := w }
    if s.bit (lnkBase n) LNK_REKEY.REQ then startRekey s n else s
  else s

/-- The time limit of a training state in µs (R300). -/
def trainLimit (st : Nat) : Nat :=
  if st = lkPHY then 40000
  else if st = lkALIGN then 2000
  else if st = lkIDENT then 1000
  else if st = lkAUTH then 60000
  else 100

/-- A limit of R300 has passed: that of the state, or 200 ms for the whole sequence. -/
def trainTimeout (s : State) (n : Nat) : State :=
  let l := s.link n
  if s.training n ∧ (l.entered + usUnits (trainLimit (s.lkState n)) < s.clock ∨ l.trainStart + usUnits 200000 < s.clock) then
    linkFail s n rsTrain
  else s

def backoffExpiry (s : State) (n : Nat) : State :=
  if s.lkState n = lkBACKOFF ∧ (s.link n).entered + usUnits (1000 * (s.link n).wait) ≤ s.clock then toDetect s n else s

def active10s (s : State) (n : Nat) : State :=
  if s.lkState n = lkACTIVE ∧ (s.link n).entered + usUnits 10000000 ≤ s.clock then
    s.setL n { s.link n with backoff := 1 }
  else s

/-- Signal returns to a held link after an absence of at least 2 s on all lanes (R307). -/
def heldReturn (s : State) (n absentMs : Nat) : State :=
  if s.lkState n = lkHELD ∧ 2000 ≤ absentMs then toDetect s n else s

/-- A write of RETRAIN (R307, R308). -/
def retrain (s : State) (n : Nat) : State :=
  let s := s.wr (lnkBase n) LNK_CTRL.RETRAIN 1
  if s.lkState n = lkHELD then toDetect s n
  else if s.lkState n = lkDISABLED then s
  else toDetect (leaveLink s n rsHost) n

/-- A write of DISABLE (R300, R308, R312): the port goes to DISABLED, or leaves it. -/
def disable (s : State) (n v : Nat) : State :=
  let s := s.wr (lnkBase n) LNK_CTRL.DISABLE v
  if v = 1 then
    if s.training n || s.lkState n == lkACTIVE then enterLink (leaveLink s n rsHost) n lkDISABLED
    else enterLink s n lkDISABLED
  else if s.lkState n = lkDISABLED then toDetect s n
  else s

end Sys2Proof.Machine
end

