-- ==== Sys2Proof/Machine/Packets.lean ====
section
/-! DEFINITION. Packets that reach the units of this device (10_routing.md, R317, R318, R332, R333, R336; checks of R227
and R258), and transfers that take too long. -/

namespace Sys2Proof.Machine

/-- The bytes of a sector that BMASK names, as runs of neighbours: first byte and length (R316). `i` is the next byte, and the
last item of the list is the run that may go on. -/
def maskRuns (m : Nat) : Nat → Nat → List (Nat × Nat)
  | 0, _ => []
  | fuel + 1, i =>
    if !(bitAt m i) then maskRuns m fuel (i + 1)
    else match maskRuns m fuel (i + 1) with
      | (j, n) :: r => if j = i + 1 then (i, n + 1) :: r else (i, 1) :: (j, n) :: r
      | [] => [(i, 1)]

/-- The range that a read names (R316). A counter has no sectors: a read at its address is one of the word there (R221; DESIGN
CHOICE, log 115). -/
def readRange (a n : Nat) : Nat × Nat := if rowOf a = 3 ∧ n = 32 then (a, 4) else (a, n)

/-- Is the write of one sector under BMASK. -/
def masked (p : Pkt) : Bool := p.len32 == 1 && p.bmask != 0xFFFFFFFF

/-- The source of a packet, by the stop at which it entered this device (R21). -/
def pktSrc (p : Pkt) : Src := .far p.inPort p.collar

/-- The unit of this device that a packet is for, as an access names it. -/
def pktUnit (p : Pkt) : Option Nat := some (p.dest % 32)

/-- Where the answer to a packet enters this device (R21): at the stop of the stack for HBM, otherwise at the unit. -/
def State.answerFrom (s : State) (p : Pkt) : Nat :=
  if p.dest % 32 = 20 then
    let d := s.dstStop p.addr
    40 + 4 * d.1 + d.2
  else 8 + p.dest % 32

/-- An ACK for a request or a data packet (R332): it goes to SRC, and LOST for it would go there too. -/
def sendAck (s : State) (p : Pkt) (status bytes bad : Nat) : State :=
  inject s { dest := p.src, src := p.src, typ := tACK, cls := 1, xfer := p.xfer, collar := p.collar, status := status,
             addr := bad, last := p.last, inPort := s.answerFrom p, body := leBytes 4 bytes }

/-- RD (R317, R332): its data, or an ACK with the error. -/
def recvRd (s : State) (p : Pkt) : State :=
  let (a, n) := readRange p.addr (32 * p.len32)
  let c : Src := pktSrc p
  let bad := s.failAddr c (pktUnit p) a n
  let (s, st, data) := memReadU s c (pktUnit p) a n
  if st ≠ 0 then sendAck s p st (32 * p.len32) bad
  else inject s { dest := p.src, src := p.src, typ := tRDDATA, cls := 3, xfer := p.xfer, collar := p.collar, addr := p.addr,
                  len32 := p.len32, last := p.last, inPort := s.answerFrom p, data := fit (32 * p.len32) data }

/-- Bytes that a data packet accounts for: those of the body flits received. -/
def bytesIn (p : Pkt) : Nat := p.data.length

/-- Does the way of an answer from where it entered to the unit that wants it cross a bridge out of service (R538). -/
def State.replyFails (s : State) (p : Pkt) (unit : Nat) : Bool := s.wayFails (entryStop p.inPort) (entryStop (8 + unit))

/-- RD_DATA (R332): the bytes go to their place on this device and are accounted. -/
def recvRdData (s : State) (p : Pkt) : State :=
  match tget s.xfers p.xfer with
  | none => s
  | some x =>
    let off := p.addr - x.src
    if s.replyFails p x.pack then account s p.xfer (bytesIn p) stDevFail x.dst
    else match x.owner with
    | .cmd _ _ _ =>
      let c := s.ownerSrc x.owner x.pack
      let bad := s.failAddr c none (x.dst + off) p.data.length
      let (s, st) := memWrite s c (x.dst + off) p.data
      let s := { s with xfers := tset s.xfers p.xfer { x with buf := tset x.buf off p.data } }
      account s p.xfer (bytesIn p) st bad
    | _ => account { s with xfers := tset s.xfers p.xfer { x with buf := tset x.buf off p.data } } p.xfer (bytesIn p) 0 0

/-- The bytes that a write carries, by their place from ADDR on (R316, R317): all that came, or under BMASK those that it
names. -/
def writePieces (p : Pkt) : Tbl (List Nat) :=
  if masked p then
    ((maskRuns p.bmask 32 0).map (fun r => (r.1, (p.data.drop r.1).take r.2))).filter (fun x => !x.2.isEmpty)
  else [(0, p.data)]

/-- WR and FWD_DATA: the bytes that arrived are written, and their ACK goes to SRC (R332). -/
def recvWrite (s : State) (p : Pkt) : State :=
  let (s, st, bad) := memWritePieces s (pktSrc p) (pktUnit p) p.addr (writePieces p)
  sendAck s p st (if st = 0 then bytesIn p else 32 * p.len32) bad

/-- FWD_DATA (R318): when the issuer is this device, its transfer also keeps the bytes for the fingerprint (R410). -/
def recvFwd (s : State) (p : Pkt) : State :=
  let s := match tget s.xfers p.xfer with
    | some x => if x.home ∧ p.src / 32 = s.coord then
        { s with xfers := tset s.xfers p.xfer { x with buf := tset x.buf (p.addr - x.dst) p.data } } else s
    | none => s
  recvWrite s p

/-- ACK (R332, R333). -/
def recvAck (s : State) (p : Pkt) : State :=
  let fails := match tget s.xfers p.xfer with
    | some x => s.replyFails p x.pack
    | none => false
  account s p.xfer (leNat (p.body.take 4)) (if fails then stDevFail else p.status) p.addr

/-- SYNC (R220, R222, R227): an add or a set at a counter of the pack, and its ACK. The body's layout, index, operation and
value in bytes 0 and 1, 2, and 4 to 7, is a DESIGN CHOICE, log 154. -/
def recvSync (s : State) (p : Pkt) : State :=
  let idx := leNat (slice p.body 0 2)
  let a := syncCtrBase + p.dest % 32 * 0x10000 + idx * 16 + (if p.body.getD 2 0 = 1 then 0 else 4)
  let (s, st) :=
    if 16 ≤ p.dest % 32 ∨ 1024 ≤ idx then (s, stBadAddr) else memWrite s (pktSrc p) a (slice p.body 4 4)
  sendAck s p st 4 0

/-- RD_FWD (R318): the data go on as FWD_DATA, or an ACK carries the error to the issuer. -/
def recvRdFwd (s : State) (p : Pkt) : State :=
  let n := 32 * p.len32
  let c : Src := pktSrc p
  let bad := s.failAddr c (pktUnit p) p.addr n
  let (s, st, data) := memReadU s c (pktUnit p) p.addr n
  if st ≠ 0 then sendAck s p st n bad
  else inject s { dest := p.fep, src := p.src, typ := tFWDDATA, cls := 4, xfer := p.xfer, collar := p.collar,
                  addr := p.faddr, len32 := p.len32, last := p.last, inPort := s.answerFrom p, data := data }

/-- LOST (R336): the bytes are accounted with LINK_LOST; a collective learns of it (R372). -/
def recvLost (s : State) (p : Pkt) : State :=
  let typ := p.body.getD 4 0
  if 0x10 ≤ typ ∧ typ < 0x20 then collLost s p typ
  else account s p.xfer (leNat (p.body.take 4)) stLinkLost 0

/-- A transfer is not complete after XFER_TO ms (R333; 0 acts as 1): it completes with XFER_TIMEOUT. -/
def xferTimeout (s : State) (id : Nat) : State :=
  match tget s.xfers id with
  | none => s
  | some x =>
    if x.t0 + usUnits (1000 * max 1 (s.rd rteBase RTE_CTRL.XFER_TO)) ≤ s.clock then
      ownerDone (releaseHeld { s with xfers := tdel s.xfers id } id) x.owner stXferTimeout x.dst []
    else s

/-! Loads and stores through board addresses of other devices (R35, R318). -/

/-- Who makes a load or a store through a board address: its unit (16 the host port, R6), the tile, plus 1, when it is one, and
the partition whose Collar it carries. -/
structure Far where
  unit : Nat
  who : Nat := 0
  part : Nat
deriving DecidableEq, Repr

/-- The pack that counts in a transfer; the host's is none. -/
def Far.pack (f : Far) : Nat := f.unit

/-- A load from another device: the sectors that hold its bytes, or the word of a counter. -/
def farLoad (s : State) (f : Far) (ep la n : Nat) : State :=
  let a := if rowOf la = 3 then la else la / 32 * 32
  let len := if rowOf la = 3 then 32 else (la + n + 31) / 32 * 32 - a
  let (s, id) := newXfer s { owner := .load (la - a) n, len := len, src := a, home := true, pack := f.pack, part := some f.part }
  forEach (packetCuts (len / 7168 + 1) 0 len) s (fun s c => inject s
    { dest := ep, src := s.endpoint f.unit, typ := tRD, cls := 0, xfer := id, collar := s.partCollar f.part, addr := a + c.1,
      len32 := c.2 / 32, last := c.1 + c.2 == len })

/-- The transfers of earlier stores of a tile to a device (R230). -/
def State.storesTo (s : State) (who coord : Nat) : List Nat :=
  (s.xfers.filter (fun x => x.2.who == who && x.2.ep / 32 == coord)).map Prod.fst

/-- A store to another device, sector by sector under BMASK. A store to ADD of a counter follows the earlier stores of its tile
to that device (R230). -/
def farStore (s : State) (f : Far) (ep la : Nat) (bytes : List Nat) : State :=
  let n := bytes.length
  let cuts := sectorsOf (n / 32 + 2) la n
  let after := if f.who ≠ 0 ∧ rowOf la = 3 ∧ la % 16 = 4 then s.storesTo f.who (ep / 32) else []
  let pkts := cuts.map (fun c =>
    let part := (bytes.drop (c.1 - la)).take c.2
    let p : Pkt := {
      dest := ep, src := s.endpoint f.unit, typ := tWR, cls := 2, xfer := s.xferNext, collar := s.partCollar f.part
      addr := c.1 / 32 * 32, len32 := 1, bmask := byteMask c.1 c.2, last := c.1 + c.2 == la + n
      data := fit 32 (List.replicate (c.1 % 32) 0 ++ part) }
    p)
  let (s, _) := newXfer s { owner := .store, len := 32 * cuts.length, dst := la, pack := f.pack, part := some f.part, who := f.who, ep := ep,
                            after := after, held := if after.isEmpty then [] else pkts }
  if after.isEmpty then forEach pkts s inject else s

end Sys2Proof.Machine
end

