-- ==== Sys2Proof/Machine/Cxl.lean ====
section
/-! DEFINITION. The host port (15_host_interface.md): logical devices, the answers to the host, device-initiated accesses
(R476 to R479), HDM decoders (R471, R472), IDE streams (R483 to R485), the link (R461, R462, R492), router telemetry (R481)
and the component command interface (R465). -/

namespace Sys2Proof.Machine

/-! Tags of what the port answers to the host (`Out.answer`). -/
def haData : Nat := 0
def haUR : Nat := 1
def haCA : Nat := 2
def haPoison : Nat := 3
def haDone : Nat := 4
def haRetry : Nat := 5
def haSnoop : Nat := 6
def haUnsupported : Nat := 7
def haSpdm : Nat := 8
def haFm : Nat := 9
def haMbox : Nat := 10
def haDoe : Nat := 11
def haSecured : Nat := 12

def State.fn (s : State) (n : Nat) : LdFn := tgetD s.fns n {}
def State.setFn (s : State) (n : Nat) (f : LdFn) : State := { s with fns := tset s.fns n f }

/-- D0, outside the failed state, a warm reset and a power-on reset (R490, R495, R498): the compute dies serve. -/
def State.live (s : State) : Bool :=
  s.rd shpBase SHP_STATE.PSTATE == 0 && !s.shp.failed && !s.shp.warm && !s.shp.off

def State.linkOn (s : State) : Bool := s.rd cxlpBase CXLP_LSTAT.RATE != 0
/-- Does the host port take requests of the host: the link is up, and no entry into Doze or Standby has begun (R520). -/
def State.hostOpen (s : State) : Bool := s.linkOn && s.shp.dozing == 0

def State.cacheOn (s : State) : Bool := s.bit cxlpBase CXLP_LSTAT.CACHE
def State.linkIde (s : State) : Bool := s.bit cxlpBase CXLP_LSTAT.CMIDE

/-- Is a function offered: LDn by its partition (R463), the FMLD once the device serves (R495). -/
def State.offered (s : State) (n : Nat) : Bool :=
  if n = 8 then s.live else decide (n < 8) && s.bit (cxlpLBase n) CXLP_LDSTAT.OFFERED

/-- The LD bit of a partition's PARTITION section (R381). -/
def State.partLdBit (s : State) (k : Nat) : Bool := bitAt ((s.part k).section_.getD 1 0) 0

/-- LDn is offered while PTn is active with LD set; in direct mode only LD0 is (R462, R463). -/
def refreshOffered (s : State) : State :=
  forEach (List.range 8) s (fun s n =>
    let on := s.active n && s.partLdBit n && !(s.rd cxlpBase CXLP_LSTAT.MODE == 1 && n != 0)
    s.wr (cxlpLBase n) CXLP_LDSTAT.OFFERED (if on then 1 else 0))

/-- The source of an access through a function (R433, R480). -/
def ldSrc (n : Nat) : Src := if n = 8 then .mgmt else .ld n

/-- The LD number as registers and events show it. -/
def ldNumber (n : Nat) : Nat := if n = 8 then 15 else n

/-! Errors. -/

/-- The first error since VALID was cleared (R470, R486). -/
def logAccess (s : State) (status n chan : Nat) (inbound : Bool) (addr : Nat) : State :=
  if s.bit cxlpBase CXLP_ERRLOG.VALID then s
  else
    let s := s.wr cxlpBase CXLP_ERRLOG.STATUS status
    let s := s.wr cxlpBase CXLP_ERRLOG.LD (ldNumber n)
    let s := s.wr cxlpBase CXLP_ERRLOG.CHAN chan
    let s := s.wr cxlpBase CXLP_ERRLOG.INBOUND (if inbound then 1 else 0)
    let s := s.wr cxlpBase CXLP_ERRADDR.ADDR addr
    s.wr cxlpBase CXLP_ERRLOG.VALID 1

/-- A failed access is logged and raises CXLP_ACCESS_ERR (R470, R535). -/
def accessErr (s : State) (status n chan : Nat) (inbound : Bool) (addr : Nat) : State :=
  raiseEv (logAccess s status n chan inbound addr) .cxlpAccessErr (if n < 8 then some n else none)
    { status := status, subj := ldNumber n, addr := addr, detail := chan }

/-! AER and RAS status (R460; the bits are PCIe's and CXL's, PRESUMED): the uncorrectable error status of AER, and that of the
RAS capability in the component registers. -/

def aerTimeout : Nat := 14
def aerAbort : Nat := 15
def aerUnsupported : Nat := 20
def aerIde : Nat := 28
def rasMemData : Nat := 7
def rasPoison : Nat := 10
def rasIde : Nat := 16

def setBitIn (t : Tbl Nat) (k i : Nat) : Tbl Nat := tset t k (Nat.lor (tgetD t k 0) (2 ^ i))

/-- An error of function n is recorded in its AER status. -/
def aerSet (s : State) (n i : Nat) : State :=
  if n < 9 then s.setFn n { s.fn n with cfg := setBitIn (s.fn n).cfg 0x104 i } else s

/-- An error of function n is recorded in its RAS status. -/
def rasRecord (s : State) (n i : Nat) : State :=
  if n < 9 then s.setFn n { s.fn n with comp := setBitIn (s.fn n).comp 0x1100 i } else s

/-- What the host's answer to an access of LDn leaves in its RAS status: poison received. -/
def rasSet (s : State) (n : Nat) (ans : HostAns) : State :=
  match ans with
  | .poison => rasRecord s n rasPoison
  | _ => s

/-- A host-initiated CXL.io access that ends with a device status (R470): Unsupported Request for BAD_ADDR, Completer Abort
otherwise; a write is discarded. -/
def ioFail (s : State) (n status addr : Nat) (isRead : Bool) : State :=
  let s := s.bump cxlpBase CXLP_IOERR.COUNT CXLP_IOERR.WRAP 1
  let s := aerSet (accessErr s status n 0 true addr) n (if status = stBadAddr then aerUnsupported else aerAbort)
  if isRead then s.emit (.answer (if status = stBadAddr then haUR else haCA) []) else s

/-- A host-initiated CXL.mem access that fails (R470): poison with zero data, or a completion without the write. -/
def memFail (s : State) (n status addr len : Nat) (isRead : Bool) : State :=
  let s := s.bump cxlpBase CXLP_MEMERR.COUNT CXLP_MEMERR.WRAP 1
  let s := accessErr s status n 2 true addr
  let s := if status = stMemUe then rasRecord s n rasMemData else s
  if isRead then s.emit (.answer haPoison (List.replicate len 0)) else s.emit (.answer haDone [])

/-- May a request through function n pass: the function is offered, and where IDE_REQ is set the request arrived in its
stream (R463, R484, R485). `ide` says that a CXL.io request arrived in the LD's selective stream. -/
def State.ideBlocks (s : State) (n chan : Nat) (ide : Bool) : Bool :=
  decide (n < 8) && s.bit (cxlpLBase n) CXLP_LDCTRL.IDE_REQ &&
    (if chan = 0 then !(ide && s.bit (cxlpLBase n) CXLP_LDSTAT.IDE_IO) else !s.linkIde)

/-- Is LDn still offered while its partition is being torn down: its requests complete as DENIED (R444, R463). -/
def State.closing (s : State) (n : Nat) : Bool := decide (n < 8) && s.offered n && !(s.active n)

/-- A request to a function that is not offered is discarded and logged (R463). -/
def notOffered (s : State) (n chan addr : Nat) : State :=
  let s := if chan = 2 then s.bump cxlpBase CXLP_MEMERR.COUNT CXLP_MEMERR.WRAP 1
    else s.bump cxlpBase CXLP_IOERR.COUNT CXLP_IOERR.WRAP 1
  accessErr s stDenied n chan true addr

/-! Device-initiated accesses. -/

/-- The channel of a device-initiated access (R477). -/
def State.hostChan (s : State) (k : HostKind) : Nat :=
  match k with
  | .read => if s.cacheOn then 1 else 0
  | .write => if s.cacheOn then 1 else 0
  | .word => 0
  | .msix _ => 0

/-- Is an access of LDn, or of the FMLD's function as number 8, denied (R479). -/
def State.hostDenied (s : State) (n : Nat) (k : HostKind) : Bool :=
  if n = 8 then !(s.offered 8) || !(bitAt (s.fn 8).cmd 2)
  else decide (9 ≤ n) || !(s.offered n) || !(s.bit (cxlpLBase n) CXLP_LDSTAT.BME) ||
    (s.bit (cxlpLBase n) CXLP_LDCTRL.IDE_REQ &&
      !(if s.hostChan k = 1 then s.linkIde else s.bit (cxlpLBase n) CXLP_LDSTAT.IDE_IO))

/-- A device-initiated access of LDn has failed: counted and logged (R485, R486). -/
def hostFailed (s : State) (n status chan addr : Nat) : State :=
  let s := s.bump cxlpBase CXLP_HOSTERR.COUNT CXLP_HOSTERR.WRAP 1
  if n < 9 then accessErr s status n chan false addr else s

/-- An access completes once all its pieces are taken and answered, with its first error (R476). -/
def accSettle (s : State) (id : Nat) : State :=
  match tget s.haccs id with
  | none => s
  | some a =>
    if a.taken < a.len ∨ s.hpieces.any (fun p => p.2.acc == id) then s
    else
      let s := { s with haccs := tdel s.haccs id }
      let data := bufBytes a.parts
      let s := if a.status = 0 ∧ a.kind = .read then addFp s a.owner s.coord a.loc data else s
      ownerDone s a.owner a.status a.bad data

/-- The first error of an access, with its address. -/
def HostAcc.note (a : HostAcc) (status bad : Nat) : HostAcc :=
  if a.status = 0 ∧ status ≠ 0 then { a with status := status, bad := bad } else a

/-- A piece of an access fails at the port or at the host: the access starts no further piece (R479). -/
def accFail (s : State) (id status addr : Nat) : State :=
  match tget s.haccs id with
  | none => s
  | some a =>
    let s := if a.status = 0 ∧ status ≠ stDevFail then hostFailed s a.ld status (s.hostChan a.kind) addr else s
    accSettle { s with haccs := tset s.haccs id { a.note status addr with taken := a.len } } id

/-- The first piece of an access fails at the port: the access has taken nothing yet, and of this status and that of its
local side it takes the first in the order of R534 (DEDUCED, log 138). -/
def accRefuse (s : State) (id status addr : Nat) : State :=
  match tget s.haccs id with
  | none => s
  | some a =>
    let c := s.ownerSrc a.owner a.pack
    let near := match a.kind, a.owner with
      | .read, .cmd _ _ _ => s.rangeStatus c none a.loc a.len
      | _, _ => a.status
    let st := if a.taken = 0 then firstStatus near status else firstErr a.status status
    if st = status then accFail { s with haccs := tset s.haccs id { a with status := 0 } } id status addr
    else
      let bad := if a.kind = .read then s.failAddr c none a.loc a.len else a.bad
      accSettle { s with haccs := tset s.haccs id { a with status := st, bad := if a.taken = 0 then bad else a.bad,
                                                           taken := a.len } } id

/-- n bytes of an access have reached the host (LDWR) or arrived from it (LDRD), and so many of them are copied. -/
def countLd (s : State) (id n copied : Nat) : State :=
  match tget s.haccs id with
  | none => s
  | some a =>
    let s := { s with haccs := tset s.haccs id { a with done := a.done + copied, time := s.ns } }
    if a.ld < 8 then
      let b := cxlpLBase a.ld
      let s := match a.kind with
        | .read => s.wr b CXLP_LDRD.BYTES (s.rd b CXLP_LDRD.BYTES + n)
        | .write => s.wr b CXLP_LDWR.BYTES (s.rd b CXLP_LDWR.BYTES + n)
        | .word => s.wr b CXLP_LDWR.BYTES (s.rd b CXLP_LDWR.BYTES + n)
        | .msix _ => s
      retBytes s a.owner a.pack copied
    else s

/-- Does a signal wait for an earlier host write of its queue's commands (R478). -/
def State.signalWaits (s : State) (id : Nat) (a : HostAcc) : Bool :=
  match a.kind, a.owner with
  | .read, _ => false
  | .write, _ => false
  | _, .cmd q _ _ =>
    s.haccs.any (fun x => decide (x.1 < id) && x.2.kind == .write && (match x.2.owner with
      | .cmd q' _ _ => q' == q
      | _ => false))
  | _, _ => false

/-- Does an access belong to a Retriever copy that a bridge failure has stopped (R538): a copy whose way to the host crosses
the bridge still ends with DEV_FAIL. -/
def State.copyStops (s : State) (a : HostAcc) : Bool :=
  s.bridges != 0 && !(s.crossFails 0 (packStop a.pack) hostStop) && (match a.kind, a.owner with
    | .read, .cmd _ _ _ => true
    | .write, _ => true
    | _, _ => false)

/-- The next access of LDn whose piece may start: the oldest with bytes not yet taken (R476). -/
def State.ldNext (s : State) (n : Nat) : Option (Nat × HostAcc) :=
  match s.haccs.find? (fun x => x.2.ld == n && decide (x.2.taken < x.2.len) && !(s.copyStops x.2)) with
  | some (id, a) => if s.signalWaits id a then none else some (id, a)
  | none => none

/-- The host-port Retriever that is free to take a piece: of the two, the first that carries none. -/
def State.freeHostRet (s : State) : Option Nat := [0, 1].find? (fun r => !(s.hpieces.any (fun p => p.2.ret == r)))

/-- A piece that the host is to answer. -/
def sendPiece (s : State) (id off len ret : Nat) : State :=
  { s with hpieces := tset s.hpieces s.hpieceNext { acc := id, off := off, len := len, t0 := s.clock, ret := ret }
           hpieceNext := s.hpieceNext + 1 }

/-- A range cut at the multiples of g: start and length of each part, lowest first. -/
def cutAt (g : Nat) : Nat → Nat → Nat → List (Nat × Nat)
  | 0, _, _ => []
  | fuel + 1, a, n =>
    if n = 0 then []
    else
      let len := min n (g - a % g)
      (a, len) :: cutAt g fuel (a + len) (n - len)

/-- A range cut into parts of at most m bytes. -/
def cutUpTo (m : Nat) : Nat → Nat → Nat → List (Nat × Nat)
  | 0, _, _ => []
  | fuel + 1, a, n => if n = 0 then [] else (a, min n m) :: cutUpTo m fuel (a + min n m) (n - min n m)

/-- The device control register of LDn (PRESUMED, PCIe: reset value 0x2000, a read request size of 512 and a payload of 128
bytes). -/
def State.devCtl (s : State) (n : Nat) : Nat := tgetD (s.fn n).cfg 0x48 0x2000

/-- The maximum read request size and the maximum payload of LDn, up to 4,096 and 512 bytes (R477). -/
def State.readMax (s : State) (n : Nat) : Nat := min 4096 (128 * 2 ^ (s.devCtl n / 4096 % 8))
def State.payloadMax (s : State) (n : Nat) : Nat := min 512 (128 * 2 ^ (s.devCtl n / 32 % 8))

/-- The transactions that read n bytes of host memory from address ha for LDn (R477). -/
def State.readTxs (s : State) (n ha len : Nat) : List Out :=
  if s.cacheOn then (cutAt 64 (len / 64 + 2) ha len).map (fun c => .hostRead .rdCurr n (c.1 / 64 * 64) 64)
  else (cutUpTo (s.readMax n) (len / s.readMax n + 1) ha len).map (fun c => .hostRead .memRd n c.1 c.2)

/-- The transactions that write bytes to host memory from address ha for LDn (R477): under CXL.cache whole lines and parts of
lines. -/
def State.writeTxs (s : State) (n ha : Nat) (bytes : List Nat) : List Out :=
  let cuts := if s.cacheOn then cutAt 64 (bytes.length / 64 + 2) ha bytes.length
    else cutUpTo (s.payloadMax n) (bytes.length / s.payloadMax n + 1) ha bytes.length
  cuts.map (fun c =>
    .hostWrite (if !s.cacheOn then .memWr else if c.2 = 64 then .itoMWr else .woWrInv) n c.1
      ((bytes.drop (c.1 - ha)).take c.2))

/-- The bytes of an access's parts that lie within `len` bytes from offset `off`, by their place. -/
def partsIn (l : Tbl (List Nat)) (off len : Nat) : Tbl (List Nat) :=
  l.filterMap (fun x =>
    let lo := max off x.1
    let hi := min (off + len) (x.1 + x.2.length)
    if lo < hi then some (lo, (x.2.drop (lo - x.1)).take (hi - lo)) else none)

/-- Items at the boundary, in order. -/
def State.emitAll (s : State) (l : List Out) : State := { s with out := s.out ++ l }

/-- A host-port Retriever takes the next piece, in round robin over the LDs (R476, R477): at most 4 KiB, within one 4 KiB of
host addresses. It is taken while one of the two is free. Number 8 stands for the FMLD's function, whose accesses are the
fetches of R505, and 9 for packs without a partition, whose accesses are denied. The path from the pack to the host port is
that of R21 (R538). -/
def hostPiece (s : State) : State :=
  let order := (List.range 10).map (fun i => (s.lastLd + 1 + i) % 10)
  match s.freeHostRet, order.findSome? (fun n => (s.ldNext n).map (fun x => (n, x))) with
  | some r, some (n, id, a) =>
    let s := { s with lastLd := n }
    let ha := (a.addr + a.taken) % 2 ^ 64
    let len := min (a.len - a.taken) (4096 - ha % 4096)
    if s.hostDenied n a.kind then accRefuse s id stDenied ha
    else if s.crossFails 0 (packStop a.pack) hostStop then accRefuse s id stDevFail ha
    else if !s.linkOn then accFail s id stHostErr ha
    else
      let a := { a with taken := a.taken + len, time := s.ns, ret := some r }
      let s := { s with haccs := tset s.haccs id a }
      let off := a.taken - len
      match a.kind with
      | .read => sendPiece (s.emitAll (s.readTxs n ha len)) id off len r
      | .write =>
        let ps := partsIn a.parts off len
        let s := s.emitAll (ps.foldr (fun p l => s.writeTxs n ((a.addr + p.1) % 2 ^ 64) p.2 ++ l) [])
        if s.cacheOn ∧ ps ≠ [] then sendPiece s id off len r
        else accSettle (countLd s id (bufBytes ps).length (bufBytes ps).length) id
      | .word => accSettle (countLd (s.emit (.hostWrite .memWr n ha (bufBytes a.parts))) id 4 4) id
      | .msix v => accSettle (sendMsix s n v) id
  | _, _ => s

/-- The host answers a piece (R478, R479). An answer that does not belong to the piece's kind changes nothing. Where the local
side fails for a part, the parts that pass are written and the copy goes on (R554). -/
def hostCompletion (s : State) (piece : Nat) (ans : HostAns) : State :=
  match tget s.hpieces piece with
  | none => s
  | some p =>
    match tget s.haccs p.acc with
    | none => { s with hpieces := tdel s.hpieces piece }
    | some a =>
      let gone := { s with hpieces := tdel s.hpieces piece }
      let at_ := (a.addr + p.off) % 2 ^ 64
      let bad := rasSet (accFail gone p.acc stHostErr at_) a.ld ans
      -- the reply on its way to the pack (R538)
      let cut := s.wayFails hostStop (packStop a.pack)
      match ans with
      | .data bs =>
        if a.kind = .read ∧ bs.length = p.len then
          if cut then accFail (countLd gone p.acc p.len 0) p.acc stDevFail at_
          else match a.owner with
          | .cmd _ _ _ =>
            let c := s.ownerSrc a.owner a.pack
            let fa := s.failAddr c none (a.loc + p.off) p.len
            let kept := s.storedBytes c none (a.loc + p.off) [(0, bs)]
            let (s, st) := memWrite gone c (a.loc + p.off) bs
            let s := { s with haccs := tset s.haccs p.acc { a.note st fa with parts := tset a.parts p.off bs } }
            accSettle (countLd s p.acc p.len kept) p.acc
          | _ =>
            accSettle (countLd { gone with haccs := tset gone.haccs p.acc { a with parts := tset a.parts p.off bs } } p.acc
              p.len p.len) p.acc
        else s
      | .observed =>
        if a.kind = .write then
          let n := (bufBytes (partsIn a.parts p.off p.len)).length
          if cut then accFail (countLd gone p.acc n 0) p.acc stDevFail at_ else accSettle (countLd gone p.acc n n) p.acc
        else s
      | .unsupported => bad
      | .abort => bad
      | .poison => bad

/-- No answer within CTO_US, where 0 acts as 1 (R479, R486). -/
def completionTimeout (s : State) (piece : Nat) : State :=
  match tget s.hpieces piece with
  | none => s
  | some p =>
    if s.clock < p.t0 + max 1 (s.rd cxlpBase CXLP_CFG.CTO_US) * 7000 then s
    else
      let a := (tgetD s.haccs p.acc {}).addr
      accFail (aerSet { s with hpieces := tdel s.hpieces piece } (tgetD s.haccs p.acc {}).ld aerTimeout) p.acc stHostErr
        ((a + p.off) % 2 ^ 64)

/-- Every device-initiated access that waits for the host, or has not started, ends (R492). -/
def failHost (s : State) (status : Nat) (pick : HostAcc → Bool) : State :=
  let ids := (s.haccs.filter (fun x => pick x.2)).map Prod.fst
  forEach ids s (fun s id =>
    let s := { s with hpieces := s.hpieces.filter (fun p => p.2.acc != id) }
    accFail s id status (tgetD s.haccs id {}).addr)

/-! Ring fetches. -/

/-- A ring fetch of eight slots (R131, R133, R135): from HBM it completes under the partition's Collar; from host memory it
joins the accesses of the partition's LD, and its commands come with the host's answer (R476). `upset` is what a read of HBM
delivers wrong. -/
def fetch (s : State) (q : QId) (upset : List (Nat × Nat × Nat)) : State :=
  match s.nextFetch q with
  | none => s
  | some (n, a, at_) =>
    let p := qPack q
    if s.rd (qBase q) SEQ_QCTRL.LOC = 0 then
      if 2 ^ 40 ≤ a then fetchFailed s q n stBadAddr a
      else
        let (s, st, bs) := memRead s (.unit p) a 256
        let hit := if st = 0 ∧ rowOf a = 0 then upset.map Prod.fst else []
        let (s, st, bs) := ((List.range 8).filter (fun k => hit.contains k)).foldl
          (fun (x : State × Nat × List Nat) k =>
            let (s, d) := hbmDecode x.1 (a / 32 + k) ((upset.filter (fun u => u.1 == k)).map Prod.snd) false
            match d with
            | some l => (s, x.2.1, x.2.2.take (32 * k) ++ l ++ x.2.2.drop (32 * k + 32))
            | none => (s, stMemUe, x.2.2)) (s, st, bs)
        if st = 0 then deliver s q n at_ bs else fetchFailed s q n st a
    else
      newHostAcc (s.setQ q { s.queue q with fetching := some (s.qTail q) })
        { ld := s.packLd p, kind := .read, addr := a, len := 256, owner := .fetch q n at_, pack := p }

/-! MSI-X. -/

/-- The pending messages of LDn that can be sent are sent, in the order in which they became pending (R479). -/
def sendPending (s : State) (n : Nat) : State :=
  let pd := tgetD s.msixPend n []
  let go := pd.filter (s.vecOpen n)
  if go.isEmpty then s
  else forEach go { s with msixPend := tset s.msixPend n (pd.filter (fun v => !(s.vecOpen n v))) } (fun s v => sendMsix s n v)

/-- The host unmasks a vector of LDn, and a pending message is sent (R479). -/
def msixUnmask (s : State) (n vec : Nat) : State :=
  if n < 8 ∧ vec < 2048 then
    let op := tgetD s.msixOpen n []
    sendPending (if op.contains vec then s else { s with msixOpen := tset s.msixOpen n (op ++ [vec]) }) n
  else s

/-- A write of one word of the MSI-X table of LDn: vector control masks or unmasks its vector (R466, R479). -/
def msixWrite (s : State) (n i v : Nat) : State :=
  let vec := i / 4
  if i % 4 = 3 then
    if v % 2 = 0 then msixUnmask s n vec
    else { s with msixOpen := tset s.msixOpen n ((tgetD s.msixOpen n []).filter (fun x => x != vec)) }
  else { s with msixTab := tput s.msixTab (msixKey n vec (i % 4)) 0 (v % 2 ^ 32) }

/-- Word i of the pending-bit array of LDn. -/
def State.msixPba (s : State) (n i : Nat) : Nat :=
  ((tgetD s.msixPend n []).filter (fun v => v / 32 == i)).foldl (fun x v => Nat.lor x (2 ^ (v % 32))) 0

/-! IDE. -/

/-- The function whose session sets up the link stream (R483). -/
def State.linkKeyFn (s : State) : Nat := if s.rd cxlpBase CXLP_LSTAT.MODE = 2 then 8 else 0

/-- The configuration register that takes the words of a data object of DOE (PRESUMED, log 71). -/
def doeReg : Nat := 0x1C0

/-- An IDE_KM exchange in a secured session sets up the selective stream of LDn, or the link stream, with its keys (R436,
R482, R483). -/
def ideKm (s : State) (n : Nat) (link : Bool) (key : Nat) : State :=
  if !s.hostOpen then s
  else if !(s.offered n) then notOffered s n 0 doeReg
  else if s.closing n then ioFail s n stDenied doeReg false
  else if !((s.fn n).session) then s
  else if link then
    if n = s.linkKeyFn then { s.wr cxlpBase CXLP_LSTAT.CMIDE 1 with kn := { s.kn with linkIde := some key } } else s
  else if n < 8 then (s.wr (cxlpLBase n) CXLP_LDSTAT.IDE_IO 1).setFn n { s.fn n with ideKey := some key }
  else s

/-- LDn's selective stream, or the link stream, ends and its keys are destroyed (R484). -/
def endIdeIo (s : State) (n : Nat) : State :=
  (s.wr (cxlpLBase n) CXLP_LDSTAT.IDE_IO 0).setFn n { s.fn n with ideKey := none }
def endIdeLink (s : State) : State :=
  { s.wr cxlpBase CXLP_LSTAT.CMIDE 0 with kn := { s.kn with linkIde := none } }

/-- An IDE integrity failure ends the stream (R484): `n` names LDn's stream, 8 the link stream. -/
def ideFailure (s : State) (n : Nat) : State :=
  let report := fun (s : State) (ld : Nat) =>
    let s := logAccess s 0 ld 3 true 0
    raiseEv s .cxlpIdeFail (if ld < 8 then some ld else none) { subj := ldNumber ld }
  if n < 8 then
    if s.bit (cxlpLBase n) CXLP_LDSTAT.IDE_IO then aerSet (report (endIdeIo s n) n) n aerIde else s
  else if s.linkIde then rasRecord (report (endIdeLink s) 8) 8 rasIde else s

/-- Every IDE stream ends and its keys are destroyed (R484). -/
def endIde (s : State) : State := forEach (List.range 8) (endIdeLink s) endIdeIo

/-! The link. -/

/-- The host link comes up, or its training ends without CXL (R461, R462): rate 1 to 3, width 1 to 3, mode 1 direct or 2
switched, reason 0 or why the link stays down. -/
def cxlLinkUp (s : State) (rate width mode reason : Nat) : State :=
  if s.linkOn ∨ !s.live ∨ s.shp.perst ∨ s.kn.deferWarm then s
  else if reason ≠ 0 then
    if reason ≤ 2 then s.wr cxlpBase CXLP_LSTAT.REASON reason else s
  else if 1 ≤ rate ∧ rate ≤ 3 ∧ 1 ≤ width ∧ width ≤ 3 ∧ (mode = 1 ∨ mode = 2) then
    let s := s.wr cxlpBase CXLP_LSTAT.RATE rate
    let s := s.wr cxlpBase CXLP_LSTAT.WIDTH width
    let s := s.wr cxlpBase CXLP_LSTAT.MODE mode
    let s := s.wr cxlpBase CXLP_LSTAT.REASON 0
    let s := s.wr cxlpBase CXLP_LSTAT.CACHE (if mode = 1 ∧ s.bit cxlpBase CXLP_CFG.CACHE_EN then 1 else 0)
    refreshOffered s
  else s

/-- The host link goes down (R492, R493): the IDE streams end, device accesses in flight complete with HOST_ERR, the
sessions end, and the LDs stay offered. -/
def cxlLinkDown (s : State) : State :=
  if !s.linkOn then s
  else
    let s := failHost s stHostErr (fun _ => true)
    let s := s.wr cxlpBase CXLP_LSTAT.RATE 0
    let s := s.wr cxlpBase CXLP_LSTAT.WIDTH 0
    let s := s.wr cxlpBase CXLP_LSTAT.CACHE 0
    let s := s.wr cxlpBase CXLP_LSTAT.REASON 3
    endIde s

/-! HDM decoders. -/

/-- Bytes of memory that LDn offers (R464). -/
def State.ldMem (s : State) (n : Nat) : Nat := (s.partStacks n).length * 2 ^ 36

/-- The device physical address that a host physical address reaches through a decoder, in the standard decode: the
interleave bits above the granularity are dropped (R471; PRESUMED, CXL). -/
def Hdm.dpa (h : Hdm) (base hpa : Nat) : Option Nat :=
  if h.committed ∧ h.base ≤ hpa ∧ hpa < h.base + h.size then
    let off := hpa - h.base
    some (base + h.skip + off / (h.gran * h.ways) * h.gran + off % h.gran)
  else none

/-- Bytes of DPA that a decoder covers, its skip included. -/
def Hdm.span (h : Hdm) : Nat := h.skip + h.size / h.ways

/-- The DPA of a host address through the decoders of LDn: a second decoder's range follows that of the first. -/
def State.hdmDpa (s : State) (n hpa : Nat) : Option Nat :=
  let d := (s.fn n).hdm
  let h0 := tgetD d 0 {}
  let h1 := tgetD d 1 {}
  match h0.dpa 0 hpa with
  | some x => some x
  | none => h1.dpa (if h0.committed then h0.span else 0) hpa

/-- The local address of a DPA of LDn (R472). -/
def State.dpaLocal (s : State) (n d : Nat) : Nat := (s.partStacks n).getD (d / 2 ^ 36) 0 * 2 ^ 36 + d % 2 ^ 36

/-- CXLP_LDSTAT.HDM of LDn: is a decoder committed (R486). -/
def hdmFlag (s : State) (n : Nat) : State :=
  s.wr (cxlpLBase n) CXLP_LDSTAT.HDM (if (s.fn n).hdm.any (fun x => x.2.committed) then 1 else 0)

/-- Does a decoder hold values that R471 allows. -/
def Hdm.legal (h : Hdm) : Bool :=
  let m := 2 ^ 28
  [1, 2, 3, 4, 6, 8, 12].contains h.ways && [256, 512, 1024, 2048, 4096, 8192, 16384].contains h.gran &&
    h.base % m == 0 && h.size % m == 0 && h.size != 0 && h.size % h.ways == 0

/-- Decoder i of LDn, as programmed, commits, or fails with Error Not Committed (R471). A committed decoder keeps its values. -/
def hdmTry (s : State) (n i : Nat) (h : Hdm) : State :=
  let f := s.fn n
  if (tgetD f.hdm i {}).committed then s
  else
    let before := if i = 1 ∧ (tgetD f.hdm 0 {}).committed then (tgetD f.hdm 0 {}).span else 0
    if h.legal ∧ before + h.span ≤ s.ldMem n then
      (s.setFn n { f with hdm := tset f.hdm i { h with committed := true, err := false } }).wr (cxlpLBase n) CXLP_LDSTAT.HDM 1
    else s.setFn n { f with hdm := tset f.hdm i { h with committed := false, err := true } }

/-- The host programs and commits decoder i of LDn (R471). -/
def hdmCommit (s : State) (n i base size ways gran skip : Nat) : State :=
  if 8 ≤ n ∨ 2 ≤ i then s else hdmTry s n i { base := base, size := size, ways := ways, gran := gran, skip := skip }

/-- The host uncommits decoder i of LDn: it decodes nothing until it is committed again (R471; PRESUMED, CXL). -/
def hdmUncommit (s : State) (n i : Nat) : State :=
  let f := s.fn n
  let h := tgetD f.hdm i {}
  hdmFlag (s.setFn n { f with hdm := tset f.hdm i { h with committed := false, err := false } }) n

/-- The DPA and local address of a CXL.mem access, or the status with which it fails: DENIED also while LDn's partition is
being torn down (R463). -/
def State.memTarget (s : State) (n hpa : Nat) : Sum Nat (Nat × Nat) :=
  if !(s.active n) || s.ideBlocks n 2 false then .inl stDenied
  else match s.hdmDpa n hpa with
    | none => .inl stBadAddr
    | some d => .inr (d, s.dpaLocal n d)

/-- A host CXL.mem read (R470 to R472). -/
def cxlMemRead (s : State) (n hpa len : Nat) : State :=
  if !s.hostOpen ∨ 8 ≤ n ∨ len = 0 ∨ 64 < hpa % 64 + len then s
  else if !(s.offered n) then notOffered s n 2 hpa
  else match s.memTarget n hpa with
    | .inl st => memFail s n st hpa len true
    | .inr (d, a) =>
      let (s, st, bs) := memRead s (.ld n) a len
      if st = 0 then s.emit (.answer haData bs) else memFail s n st d len true

/-- A host CXL.mem write (R470 to R472). -/
def cxlMemWrite (s : State) (n hpa : Nat) (bytes : List Nat) : State :=
  let len := bytes.length
  if !s.hostOpen ∨ 8 ≤ n ∨ len = 0 ∨ 64 < hpa % 64 + len then s
  else if !(s.offered n) then notOffered s n 2 hpa
  else match s.memTarget n hpa with
    | .inl st => memFail s n st hpa len false
    | .inr (d, a) =>
      let (s, st) := memWrite s (.ld n) a bytes
      if st = 0 then s.emit (.answer haDone []) else memFail s n st d len false

/-! Telemetry. -/

/-- A write of GO sends one TELEM_RQ (R481). A GO while a request is outstanding is discarded. -/
def telcmdGo (s : State) : State :=
  if s.telAt.isSome then s
  else
    let f := fun x => s.rd cxlpBase x
    let s : State := { s with telAt := some s.clock }
    -- a destination with a reserved coordinate or unit is refused (R7): no reply comes, and ERR is set after 100 µs
    if badDest (f CXLP_TELCMD.EP) then s
    else
      inject s { dest := f CXLP_TELCMD.EP, src := s.endpoint 16, typ := tTELRQ, cls := 1, collar := 2 ^ 31, last := true
                 body := [f CXLP_TELCMD.PORT, f CXLP_TELCMD.VC, f CXLP_TELCMD.BANK, 1] }

/-- A TELEM_RP arrives at the host port (R481). -/
def recvTelRp (s : State) (p : Pkt) : State :=
  if s.telAt.isNone then s
  else
    let s := (List.range 10).foldl
      (fun s k => s.wr cxlpBase (CXLP_TELDATA.VALUE k) (leNat ((p.body.drop (8 * k)).take 8))) { s with telAt := none }
    s.wr cxlpBase CXLP_TELCMD.DONE 1

/-- No reply within 100 µs (R481). -/
def telcmdTimeout (s : State) : State :=
  match s.telAt with
  | some t => if s.clock < t + 700000 then s else ({ s with telAt := none } : State).wr cxlpBase CXLP_TELCMD.ERR 1
  | none => s

/-! The component command interface (R465). -/

/-- Device identity and the number of LDs. The manual names the fields and no layout: unique ID, grade, stepping, 8. -/
def fmIdentify (s : State) : State :=
  if s.offered 8 ∧ s.hostOpen then
    s.emit (.answer haFm (leBytes 8 s.ident.uid ++ [s.ident.grade, s.ident.stepping, 8])) else s

/-- The memory size of each LD (R464, R465). -/
def State.ldSizes (s : State) : List Nat :=
  (List.range 8).map (fun n => if s.offered n then s.ldMem n else 0)

def fmLdInfo (s : State) : State :=
  if s.offered 8 ∧ s.hostOpen then s.emit (.answer haFm (8 :: (s.ldSizes.map (leBytes 8)).foldr (· ++ ·) [])) else s

def fmLdAllocations (s : State) : State :=
  if s.offered 8 ∧ s.hostOpen then s.emit (.answer haFm ((s.ldSizes.map (leBytes 8)).foldr (· ++ ·) [])) else s

/-- Set LD Allocations, or a command that R465 does not list. -/
def fmSetAllocations (s : State) : State :=
  if s.offered 8 ∧ s.hostOpen then s.emit (.answer haUnsupported []) else s

/-- A snoop is answered with RspIHitI (R477). -/
def snoop (s : State) : State := if s.linkOn then s.emit (.answer haSnoop []) else s

end Sys2Proof.Machine
end

