-- ==== Sys2Proof/Machine/CfgSpace.lean ====
section
/-! DEFINITION. The configuration space of the functions of the host port (R463, R464, R485, R496) and their component
registers (R460, R466, R471). R464 lists the capabilities and R466 the component registers, and the manual gives no offset of
either: where the capabilities stand is the model's choice, and their layouts are those of PCIe and CXL (PRESUMED). -/

namespace Sys2Proof.Machine

/-! The configuration space. -/

/-- Bits that a BAR keeps of what is written: its size decides (R466). -/
def barMask (size v : Nat) : Nat := v % 2 ^ 64 / size * size

/-- Offsets of the configuration words that a host can change beside the command register, the BARs and MSI-X, with the bits
that it can write and their reset value: device control, the masks and severities of AER and its control, CXL control, and
the base of the memory range. -/
def cfgRw : List (Nat × Nat × Nat) :=
  [(0x48, 0x7FEF, 0x2000), (0x108, 0xFFFFFFFF, 0), (0x10C, 0xFFFFFFFF, 0x00462030), (0x114, 0xFFFFFFFF, 0x2000),
   (0x118, 0xFFFFFFFF, 0), (0x15C, 0xFFFF, 2), (0x170, 0xFFFFFFFF, 0), (0x174, 0xF0000000, 0)]

/-- Status words in which a written 1 clears a bit: those of AER. -/
def cfgW1c : List Nat := [0x104, 0x110]

/-- A capability header: identifier, version and the offset of the next. -/
def extCap (id ver next : Nat) : Nat := id + 65536 * ver + 2 ^ 20 * next

/-- The words of the capabilities of function n that no write changes (R464): PCIe, MSI-X, AER, the CXL device DVSEC with
Cache_Capable, Mem_Capable, HDM_Count and the memory range, the Register Locator, DOE and IDE. The FMLD has no memory range,
no HDM decoders and no MSI-X. -/
def State.cfgCaps (s : State) (n : Nat) : List (Nat × Nat) :=
  let ld := decide (n < 8)
  [(0x34, 0x40), (0x40, 0x10 + (if ld then 0x8000 else 0) + 2 * 65536), (0x44, 0x10000002)] ++
  (if ld then [(0x80, 0x11 + 65536 * (2047 + 32768 * ((s.fn n).msix % 2) + 16384 * ((s.fn n).msix / 2 % 2))),
               (0x84, 0x100000 + 4), (0x88, 0x110000 + 4)] else []) ++
  [(0x100, extCap 0x01 2 0x150),
   (0x150, extCap 0x23 1 0x190), (0x154, 0x1E98 + 65536 + 2 ^ 20 * 0x38), (0x158, 65536 * (7 + (if ld then 0x20 else 0))),
   (0x168, if ld then s.ldMem n / 2 ^ 32 else 0), (0x16C, if ld then s.ldMem n % 2 ^ 32 / 2 ^ 28 * 2 ^ 28 + 3 else 0),
   (0x178, 0), (0x17C, 0), (0x180, 0), (0x184, 0),
   (0x190, extCap 0x23 1 0x1B0), (0x194, 0x1E98 + 2 ^ 20 * 0x14), (0x198, 8), (0x19C, 0x3000100), (0x1A0, 0),
   (0x1B0, extCap 0x2E 2 0x1D0), (0x1D0, extCap 0x30 1 0), (0x1D4, 0xC2)]

/-- The configuration register at a dword offset, where the manual gives its contents (R464, R466). -/
def State.cfgRead (s : State) (n reg : Nat) : Option Nat :=
  let f := s.fn n
  match reg with
  | 0x04 => some f.cmd
  | 0x10 => some (f.bar0 % 2 ^ 32 + 4)
  | 0x14 => some (f.bar0 / 2 ^ 32)
  | 0x18 => some (f.bar2 % 2 ^ 32 + 12)
  | 0x1C => some (f.bar2 / 2 ^ 32)
  | 0x20 => some (f.bar4 % 2 ^ 32 + 4)
  | 0x24 => some (f.bar4 / 2 ^ 32)
  | _ =>
    match cfgRw.find? (fun x => x.1 == reg) with
    | some x => some (tgetD f.cfg reg x.2.2)
    | none => if cfgW1c.contains reg then some (tgetD f.cfg reg 0)
              else ((s.cfgCaps n).find? (fun x => x.1 == reg)).map Prod.snd

/-- A configuration write (PRESUMED, PCIe): Bus Master Enable is bit 2 of the command register, MSI-X Enable and Function Mask
are bits 31 and 30 of the first word of its capability. A message that can now be sent goes (R479). -/
def cfgWrite (s : State) (n reg v : Nat) : State :=
  let f := s.fn n
  let lo := fun old => old / 2 ^ 32 * 2 ^ 32 + v % 2 ^ 32
  let hi := fun old => old % 2 ^ 32 + v % 2 ^ 32 * 2 ^ 32
  match reg with
  | 0x04 =>
    let s := s.setFn n { f with cmd := v % 8 }
    if n < 8 then sendPending (s.wr (cxlpLBase n) CXLP_LDSTAT.BME (v / 4)) n else s
  | 0x10 => s.setFn n { f with bar0 := barMask (2 ^ 26) (lo f.bar0) }
  | 0x14 => s.setFn n { f with bar0 := barMask (2 ^ 26) (hi f.bar0) }
  | 0x18 => s.setFn n { f with bar2 := barMask (2 ^ 32) (lo f.bar2) }
  | 0x1C => s.setFn n { f with bar2 := barMask (2 ^ 32) (hi f.bar2) }
  | 0x20 => s.setFn n { f with bar4 := barMask (2 ^ 23) (lo f.bar4) }
  | 0x24 => s.setFn n { f with bar4 := barMask (2 ^ 23) (hi f.bar4) }
  | 0x80 => if n < 8 then sendPending (s.setFn n { f with msix := v / 2 ^ 31 % 2 + 2 * (v / 2 ^ 30 % 2) }) n else s
  | _ =>
    match cfgRw.find? (fun x => x.1 == reg) with
    | some x => s.setFn n { f with cfg := tset f.cfg reg (Nat.land v x.2.1) }
    | none =>
      if cfgW1c.contains reg then
        let old := tgetD f.cfg reg 0
        s.setFn n { f with cfg := tset f.cfg reg (old - Nat.land old v) }
      else s

/-- A configuration request (R463, R464, R485, R496): Request Retry Status until the device serves; at an LD that is not
offered a read has Unsupported Request and a write is discarded and logged; DENIED while the LD's partition is being torn
down. A register whose contents the manual does not give reads as a free value of its own. -/
def configRequest (s : State) (n : Nat) (isWrite : Bool) (reg v : Nat) (ide : Bool) : State :=
  if !s.hostOpen ∨ 9 ≤ n then s
  else if !s.live then s.emit (.answer haRetry [])
  else if !(s.offered n) then if isWrite then notOffered s n 0 reg else s.emit (.answer haUR [])
  else if s.closing n || s.ideBlocks n 0 ide then ioFail s n stDenied reg (!isWrite)
  else if isWrite then (cfgWrite s n reg v).emit (.answer haDone [])
  else s.emit (.answer haData (leBytes 4 ((s.cfgRead n reg).getD (Config.cfgWord n reg).toNat)))

/-! Component registers: the CXL.cachemem registers from offset 0x1000 of the block on (PRESUMED, CXL). -/

/-- The capability words of function n's component registers: the list of capabilities, then RAS, link, HDM decoder and IDE;
the decoder capability names two decoders with interleave up to 12 ways. -/
def compCaps (n : Nat) : List (Nat × Nat) :=
  if n < 8 then
    [(0x1000, extCap 1 1 1 + 4 * 2 ^ 24), (0x1004, extCap 2 2 0x100), (0x1008, extCap 4 1 0x200), (0x100C, extCap 5 1 0x300),
     (0x1010, extCap 7 1 0x400), (0x1300, 0xB01)]
  else
    [(0x1000, extCap 1 1 1 + 3 * 2 ^ 24), (0x1004, extCap 2 2 0x100), (0x1008, extCap 4 1 0x200), (0x100C, extCap 7 1 0x400)]

/-- Component words that a host can change, with the bits that it can write: masks and severities of RAS, and the global
control of the decoders. -/
def compRw (n : Nat) : List (Nat × Nat) :=
  [(0x1104, 0xFFFFFFFF), (0x1108, 0xFFFFFFFF), (0x1110, 0xFFFFFFFF), (0x1114, 0xFFFFFFFF)] ++
    (if n < 8 then [(0x1304, 3)] else [])

/-- Status words of RAS in which a written 1 clears a bit. -/
def compW1c : List Nat := [0x1100, 0x110C]

/-- Interleave ways by their code, and back; a code without a meaning keeps a number that no decoder accepts. -/
def waysOf (c : Nat) : Nat :=
  match c with
  | 0 => 1 | 1 => 2 | 2 => 4 | 3 => 8 | 4 => 16 | 8 => 3 | 9 => 6 | 10 => 12
  | c => 100 + c
def waysCode (w : Nat) : Nat :=
  match w with
  | 1 => 0 | 2 => 1 | 4 => 2 | 8 => 3 | 16 => 4 | 3 => 8 | 6 => 9 | 12 => 10
  | w => (w - 100) % 16

/-- The decoder and word of a component offset: eight words from 0x1310 on for each of the two decoders of an LD. -/
def hdmWord (n off : Nat) : Option (Nat × Nat) :=
  if n < 8 ∧ 0x1310 ≤ off ∧ off < 0x1350 then some ((off - 0x1310) / 0x20, (off - 0x1310) % 0x20) else none

/-- Word `w` of a decoder (R471): base, size, control and skip. -/
def Hdm.word (h : Hdm) (w : Nat) : Nat :=
  match w with
  | 0x00 => h.base % 2 ^ 32
  | 0x04 => h.base / 2 ^ 32
  | 0x08 => h.size % 2 ^ 32
  | 0x0C => h.size / 2 ^ 32
  | 0x10 => (h.gran / 256).log2 + 16 * waysCode h.ways + (if h.lock then 256 else 0) +
      (if h.committed then 512 + 1024 else 0) + (if h.err then 512 + 2048 else 0)
  | 0x14 => h.skip % 2 ^ 32
  | 0x18 => h.skip / 2 ^ 32
  | _ => 0

/-- A 32-bit component register. -/
def State.compRead (s : State) (n off : Nat) : Nat :=
  let f := s.fn n
  match hdmWord n off with
  | some (i, w) => (tgetD f.hdm i {}).word w
  | none =>
    if (compRw n).any (fun x => x.1 == off) || compW1c.contains off then tgetD f.comp off 0
    else match (compCaps n).find? (fun x => x.1 == off) with
      | some x => x.2
      | none => (Config.compWord n off).toNat

/-- A write of one word of a decoder: a committed decoder keeps its values, its Commit bit uncommits it unless it is locked,
and a written Commit bit commits it (R471; PRESUMED, CXL). Bases, sizes and skips keep bits in 256 MiB units. -/
def hdmWrite (s : State) (n i w v : Nat) : State :=
  let f := s.fn n
  let h := tgetD f.hdm i {}
  let put := fun (h : Hdm) => s.setFn n { f with hdm := tset f.hdm i h }
  let lo := fun old => old / 2 ^ 32 * 2 ^ 32 + v % 2 ^ 32 / 2 ^ 28 * 2 ^ 28
  let hi := fun old => old % 2 ^ 32 + v % 2 ^ 32 * 2 ^ 32
  if h.committed then
    if w = 0x10 ∧ !(bitAt v 9) ∧ !h.lock then hdmUncommit s n i else s
  else match w with
    | 0x00 => put { h with base := lo h.base }
    | 0x04 => put { h with base := hi h.base }
    | 0x08 => put { h with size := lo h.size }
    | 0x0C => put { h with size := hi h.size }
    | 0x10 =>
      let h := { h with gran := 256 * 2 ^ (v % 16), ways := waysOf (v / 16 % 16), lock := bitAt v 8 }
      if bitAt v 9 then hdmTry s n i h else put { h with err := false }
    | 0x14 => put { h with skip := lo h.skip }
    | 0x18 => put { h with skip := hi h.skip }
    | _ => s

/-- A write of a 32-bit component register. -/
def compWrite (s : State) (n off v : Nat) : State :=
  let f := s.fn n
  match hdmWord n off with
  | some (i, w) => hdmWrite s n i w v
  | none =>
    match (compRw n).find? (fun x => x.1 == off) with
    | some x => s.setFn n { f with comp := tset f.comp off (Nat.land v x.2) }
    | none =>
      if compW1c.contains off then
        let old := tgetD f.comp off 0
        s.setFn n { f with comp := tset f.comp off (old - Nat.land old v) }
      else s

end Sys2Proof.Machine
end

