-- ==== Sys2Proof/Machine/HbmRows.lean ====
section
/-! DEFINITION. What an HBM controller does of itself (08_memory_system.md): patrol scrub (R267, R268), the remap pass
(R270), refresh (R275), and single sector accesses (R255, R256). -/

namespace Sys2Proof.Machine

/-- The sector of a stack at a pseudo-channel and position. -/
def State.sectorAt (s : State) (h pc pos : Nat) : Nat := s.hbmAddr h pc pos / 32

/-- One scrub read (R267): the next sector of the pass is decoded; a correctable one is written back and counted, an
uncorrectable one is logged and left. At the end of a pass PASSES rises, and an immediate pass ends (R268). -/
def scrubRead (s : State) (h : Nat) (upset : List (Nat × Nat)) : State :=
  let b := hbmcBase h
  let now := s.scrubNow.contains h
  if h < 12 ∧ s.bit b HBMC_DOMAIN.VALID ∧ (s.bit b HBMC_SCRUB_CTRL.EN ∨ now) then
    let pos := s.rd b HBMC_SCRUB_STAT.POS
    let (s, _) := hbmDecode s (s.sectorAt h (pos / 2 ^ 26) (pos % 2 ^ 26)) upset true
    if pos + 1 = 2 ^ 31 then
      let s := (s.wr b HBMC_SCRUB_STAT.POS 0).wr b HBMC_SCRUB_STAT.PASSES (s.rd b HBMC_SCRUB_STAT.PASSES + 1)
      if now then { s.wr b HBMC_SCRUB_CTRL.NOW 0 with scrubNow := s.scrubNow.filter (fun x => x != h) } else s
    else s.wr b HBMC_SCRUB_STAT.POS (pos + 1)
  else s

/-- A write of NOW starts an immediate pass, from the first sector (R268). -/
def scrubNow (s : State) (h : Nat) : State :=
  let b := hbmcBase h
  if s.bit b HBMC_DOMAIN.VALID ∧ !(s.scrubNow.contains h) then
    { (s.wr b HBMC_SCRUB_CTRL.NOW 1).wr b HBMC_SCRUB_STAT.POS 0 with scrubNow := s.scrubNow ++ [h] }
  else s

/-- A write of REQ with PIN (R269): REQ is clear again when the request is accepted or refused. -/
def remapReq (s : State) (h pc pin : Nat) : State := startRemap (s.wr (hbmcBase h) (HBMC_REMAP.PIN pc) pin) h pc (pin % 64)

/-- The end of a remap pass (R270 step 4): the pin is unmarked and SP carries it. -/
def remapEnd (s : State) (h pc : Nat) : State :=
  let b := hbmcBase h
  let p := s.rd b (HBMC_REMAP.SPIN pc)
  let left := (s.marked h pc).filter (fun x => x != p)
  let s := (s.wr b (HBMC_REMAP.MPIN0 pc) (left.getD 0 0)).wr b (HBMC_REMAP.MPIN1 pc) (left.getD 1 0)
  let s := (s.wr b (HBMC_REMAP.MARKED pc) left.length).wr b (HBMC_REMAP.SPARED pc) 1
  let s := s.wr b (HBMC_REMAP.BUSY pc) 0
  raiseEv { s with remapPtr := tdel s.remapPtr (h * 32 + pc) } .hbmRemapDone (s.stackPart h)
    { subj := h, detail := pc + 256 * p }

/-- One step of a remap pass (R270 step 2): the next sector is read, decoded with the pin erased and written back with SP
carrying the symbol; an uncorrectable sector is logged and stays. -/
def remapStep (s : State) (h pc : Nat) : State :=
  let b := hbmcBase h
  if s.bit b (HBMC_REMAP.BUSY pc) then
    let k := h * 32 + pc
    let pos := tgetD s.remapPtr k 0
    let sec := s.sectorAt h pc pos
    let (s, d) := sectorRead s sec
    let s := match d with
      | some bs => { s with mem := mwrite s.mem (sec * 32) bs, herr := tdel s.herr sec }
      | none => s
    let s := { s with remapPtr := tset s.remapPtr k (pos + 1) }
    if pos + 1 = 2 ^ 26 then remapEnd s h pc else s
  else s

/-- One refresh step of a stack (R275): the next bank, and the temperature reported. What its cells have lost is wrong in
their sectors from now on, and the other contents do not change. -/
def refreshStep (s : State) (h temp : Nat) (lost : List (Nat × Nat × Nat)) : State :=
  let here := lost.filter (fun x => decide (x.1 < 12 * 2 ^ 31) && decide (x.2.1 < 36) && (s.hbmPlace (x.1 * 32)).1 == h)
  let herr := here.foldl (fun t x =>
    let e := errAdd (tgetD t x.1 []) (x.2.1, x.2.2 % 256)
    if e.isEmpty then tdel t x.1 else tset t x.1 e) s.herr
  { s.wr (hbmcBase h) HBMC_STAT.TEMP temp with refresh := tset s.refresh h (tgetD s.refresh h 0 + 1), herr := herr }

/-- A controller serves a read of one sector (R251, R256, R262 to R264): a status and no data, or its bytes. -/
def hbmRead (s : State) (c : Src) (sector : Nat) (upset : List (Nat × Nat)) : State :=
  let st := s.partStatus c (sector * 32) 32
  if st ≠ 0 then s.emit (.compl st [])
  else
    let (s, d) := hbmDecode s sector upset false
    s.emit (.compl (if d.isSome then 0 else stMemUe) (d.getD []))

/-- A controller serves a write of bytes within one sector (R251, R255, R265). -/
def hbmWrite (s : State) (c : Src) (a : Nat) (bytes : List Nat) : State :=
  let bs := bytes.take (32 - a % 32)
  let st := s.partStatus c a bs.length
  let (s, st) := if st ≠ 0 then (s, st) else partWrite s c a bs
  s.emit (.compl st [])

end Sys2Proof.Machine
end

