-- ==== Sys2Proof/Machine/QueueCtl.lean ====
section
/-! DEFINITION. The control of a queue through its registers (R132, R157 to R159, R166 to R168, R218): faults and breaks
before a command, RESUME and SKIP, EN and HALT. -/

namespace Sys2Proof.Machine

/-- Has every earlier command of the queue retired, so that the command at HEAD may be judged (R157, R166). -/
def State.atHead (s : State) (q : QId) : Bool :=
  let qu := s.queue q
  s.bit (qBase q) SEQ_QCTRL.EN && qu.prog.isEmpty && qu.cur.isNone && qu.skip == 0 && !qu.atSwitch &&
    !(s.bit (qBase q) SEQ_QSTAT.FAULT) && !(s.bit (qBase q) SEQ_QSTAT.BREAK) && !(s.bit (qBase q) SEQ_QCTRL.HALT) &&
    !(s.bit (qBase q) SEQ_QSTAT.PREEMPTED)

/-- The failed fetch, or the refused command, at HEAD is reported (R135, R166). A refused command that a break holds reports the
break first (R158; DESIGN CHOICE, log 148). -/
def seqFault (s : State) (q : QId) : State :=
  if !(s.atHead q) then s
  else
    match s.headCmd q with
    | some (_, w) =>
      match s.refuseCode q w with
      | some code => if s.breakAt q w 0 then s else setFault s q .refused w code 0 0 0
      | none => s
    | none =>
      match (s.queue q).fetchErr with
      | some (n, st, a) => if n = s.qHead q then setFault s q .fetch 0 0x08 st a 0 else s
      | none => s

/-- A break holds the queue before the command at HEAD (R157 to R159). -/
def seqBreak (s : State) (q : QId) : State :=
  if !(s.atHead q) then s
  else
    match s.headCmd q with
    | some (_, w) =>
      if s.breakAt q w 0 then
        let b := qBase q
        let s := (s.wr b SEQ_QSTAT.BREAK 1).wr b SEQ_QSTAT.TAG (cwTAG w)
        let s := stopBlock s q
        raiseEv s .seqBreak (s.qPart q) { qword := qWord q, tag := cwTAG w, retired := s.rd b SEQ_QRETIRED.COUNT }
      else s
    | none => s

/-- Pass over the command at HEAD without work, signal or event (R166). -/
def passHead (s : State) (q : QId) : State :=
  if s.headCmd q = none then s
  else
    let qu := s.queue q
    retireSkipped (dropWait (s.setQ q { qu with skip := qu.skip + 1 }) q) q

/-- The commands of one queue go on after RESUME: the faulted command runs again from its first repeat, in CQ in a new issue
block, or retires without work (R218). -/
def resumeAfter (s : State) (q : QId) (num : Nat) (skip : Bool) : State :=
  match s.progOf q num with
  | none => s
  | some p =>
    if skip then setProg s q p.num (fun p => { p with st := .skipped, err := none, left := 0, fp := [] })
    else
      let op := cwOPCODE p.w
      let again := setProg s q p.num (fun p => { p with
        st := .work, err := none, left := cwREPEAT p.w, pieces := 0, fp := [], errRep := 0, again := qKind q == 0 })
      if op = opMOVE then startMove again q p.num p.w
      else if op = opRCOPY then giveRcopy again q p.num p.w
      else again

/-- A write of RESUME, with or without SKIP (R132, R135, R159, R166, R218). -/
def resume (s : State) (q : QId) (skip : Bool) : State :=
  let b := qBase q
  if s.bit b SEQ_QSTAT.FAULT then
    let h := (s.queue q).hold
    let s := s.wr b SEQ_QSTAT.FAULT 0
    let s := s.setQ q { s.queue q with hold := .none }
    let s := match h with
      | .none => s
      | .overrun => s
      | .fetch =>
        let s := s.setQ q { s.queue q with fetchErr := none }
        if skip then
          -- the bytes of the command are not held: it retires without them
          let num := s.qHead q
          let s := s.setQ q { s.queue q with pre := (num, 0) :: (s.queue q).pre }
          passHead s q
        else s
      | .refused => if skip then passHead s q else s
      | .after num => resumeAfter s q num skip
    showFault s q
  else if s.bit b SEQ_QSTAT.BREAK then
    let s := s.wr b SEQ_QSTAT.BREAK 0
    if skip then passHead s q else s.setQ q { s.queue q with brkPass := true }
  else s

/-- A write of HALT (R167): 1 holds the queue before its next command, 0 releases it. -/
def writeHalt (s : State) (q : QId) (v : Nat) : State :=
  if v % 2 = 1 then setHalt s q else s.wr (qBase q) SEQ_QCTRL.HALT 0

/-- EN becomes clear: a queue held by a fault is abandoned, any other stops before its next command (R166, R167). -/
def clearEn (s : State) (q : QId) : State :=
  let b := qBase q
  let s := s.wr b SEQ_QCTRL.EN 0
  let s := if s.bit b SEQ_QSTAT.FAULT then
      let s := s.wr b SEQ_QSTAT.FAULT 0
      abandon s q
    else
      let s := dropFetch (dropWait (stopBlock s q) q) q
      let qu := s.queue q
      s.setQ q { qu with
        pre := [], fetchErr := none, skip := 0, brkPass := false, arrived := false, released := false, loaded := false }
  let s := (s.wr b SEQ_QSTAT.BREAK 0).wr b SEQ_QSTAT.PREEMPTED 0
  let s := settleIdle (leaveSwitch s q) q
  match q with
  | .cq t => preemptSettle s t
  | _ => packSettleOf s q

/-- A write of EN (R167, R433, R538): 1 is ignored while RING_LOG2 is outside 7 to 25, in a pack without a partition, and
while a bridge is out of service. The retired count starts from 0 then, unless a restore has loaded it since, so that it equals
the number of a count break, which R157 counts from here (DEDUCED, log 125). -/
def writeEn (s : State) (q : QId) (v : Nat) : State :=
  let b := qBase q
  if v % 2 = 1 then
    let lg := s.rd b SEQ_QCTRL.RING_LOG2
    if s.bit b SEQ_QCTRL.EN ∨ lg < 7 ∨ 25 < lg ∨ (s.qPart q).isNone ∨ s.bridges ≠ 0 then s
    else
      let s := s.wr b SEQ_QCTRL.EN 1
      let s := if (s.queue q).loaded then s else s.wr b SEQ_QRETIRED.COUNT 0
      s.setQ q { s.queue q with whole := false, loaded := false }
  else if s.bit b SEQ_QCTRL.EN then clearEn s q else s

/-- Stop a queue at once and drop all it had (R444, R489, R490): EN clear, nothing in progress. -/
def killQueue (s : State) (q : QId) : State :=
  let b := qBase q
  let s := abandon (s.wr b SEQ_QCTRL.EN 0) q
  let s := s.wr b SEQ_QSTAT.FAULT 0
  s.wr b SEQ_QSTAT.BREAK 0

end Sys2Proof.Machine
end

