-- ==== Sys2Proof/Machine/Parts.lean ====
section
/-! DEFINITION. Base images and partition requests (R379 to R384), and the life cycle of partitions: creation, teardown
and partition reset (R433, R441 to R444, R489, R493). -/

namespace Sys2Proof.Machine

/-! The PARTITION section (R381). -/

def secPart (sec : List Nat) : Nat := sec.getD 0 0 % 8
def secFlags (sec : List Nat) : Nat := sec.getD 1 0
def secPacks (sec : List Nat) : Nat := imgField sec 2 2
def secStacks (sec : List Nat) : Nat := imgField sec 4 2
def secShare (sec : List Nat) : Nat := sec.getD 6 0
def secJdom (sec : List Nat) : Nat := imgField sec 8 4
def secNdom (sec : List Nat) : Nat := sec.getD 0x13 0
def secDom (sec : List Nat) (k : Nat) : Nat := imgField sec (0x14 + 2 * k) 2
def secRange (sec : List Nat) (p : Nat) : Nat := imgField sec (0x30 + 4 * p) 4

/-- The sections of an image of kind 1 or 2 up to its LENGTH (R380): type, reserved bytes and body. None when they do not
fill the image exactly. -/
def sectionsOf : Nat → List Nat → Option (List (Nat × Nat × List Nat))
  | 0, bs => if bs.isEmpty then some [] else none
  | fuel + 1, bs =>
    if bs.isEmpty then some []
    else if bs.length < 8 then none
    else
      let n := imgField bs 4 4
      if bs.length < 8 + n then none
      else (sectionsOf fuel (bs.drop (8 + n))).map (fun r => (imgField bs 0 2, imgField bs 2 2, slice bs 8 n) :: r)

def imgSections (bs : List Nat) : Option (List (Nat × Nat × List Nat)) :=
  sectionsOf 1000 ((bs.take (imgLength bs)).drop 64)

/-- The bodies of the sections of one type. -/
def bodiesOf (ss : List (Nat × Nat × List Nat)) (ty : Nat) : List (List Nat) :=
  (ss.filter (fun x => x.1 == ty)).map (fun x => x.2.2)

def zeros (bs : List Nat) : Bool := bs.all (fun b => b == 0)

/-- Are the reserved fields of a section 0 (R381). -/
def sectionReserved (x : Nat × Nat × List Nat) : Bool :=
  let b := x.2.2
  x.2.1 == 0 &&
    (match x.1, b.length with
     | 1, 16 => imgField b 0 4 / 2 ^ 21 == 0 && zeros (b.drop 4)
     | 2, 8 => b.all (fun v => decide (v < 128))
     | 3, 112 =>
       decide (b.getD 0 0 < 8) && decide (secFlags b < 16) && decide (secStacks b < 4096) && b.getD 7 0 == 0 &&
         decide (secJdom b < 2 ^ 28) && zeros (slice b 0x2C 4) &&
         (List.range 12).all (fun k => decide (k < secNdom b) || secDom b k == 0) &&
         (List.range 16).all (fun p => bitsAt (secRange b p) 15 10 == 0 && bitsAt (secRange b p) 30 26 == 0)
     | _, _ => true)

/-- A partition request without packs and stacks asks for teardown (R442). -/
def isTeardown (sec : List Nat) : Bool := secPacks sec == 0 && secStacks sec == 0

/-- The Header row of R382, with the checks of R442. -/
def headerOk (bs : List Nat) (kind : Nat) : Bool :=
  imgMagic bs == 0x54485347 && imgFormat bs == 1 && imgKind bs == kind && imgCrcOk bs && imgReservedOk bs &&
    imgOvid bs == 0 && imgOflags bs == 0 && imgPhid bs == 0 && (kind == 2 || imgPart bs == 0) &&
    (match imgSections bs with
     | none => false
     | some ss =>
       ss.length == imgCount bs && ss.all sectionReserved &&
         (kind == 1 || (bodiesOf ss 3).length != 1 || (bodiesOf ss 3).all (fun sec =>
           sec.length != 112 ||
             (imgPart bs == secPart sec && (!(isTeardown sec) || zeros (sec.drop 1))))))

/-- Does the signature verify under a written and unrevoked operator key (R380, R440). -/
def State.signedByOperator (s : State) (bs : List Nat) : Bool :=
  let n := imgLength bs
  s.ident.opKeys.any (fun k => !(bitAt s.ident.opRev k.1) && rsaVerify k.2 (bs.take n) (slice bs n 384))

def bitCount (n : Nat) : Nat := ((List.range 16).filter (fun i => bitAt n i)).length

def domSizeOk (n : Nat) : Bool := [1, 2, 3, 4, 6, 12].contains n

/-- Do no two numbers of a list share a bit. -/
def disjoint : List Nat → Bool
  | [] => true
  | x :: r => r.all (fun y => Nat.land x y == 0) && disjoint r

def distinct : List Nat → Bool
  | [] => true
  | x :: r => !(r.contains x) && distinct r

/-- The first row of R382 that an image breaks, in table order, or 0. -/
def State.imageCheck (s : State) (bs : List Nat) (kind : Nat) : Nat :=
  let ss := (imgSections bs).getD []
  let dev := bodiesOf ss 1
  let pm := bodiesOf ss 2
  let ps := bodiesOf ss 3
  let port := fun n => (pm.headD []).getD n 0
  let doms := fun sec => (List.range (secNdom sec)).map (secDom sec)
  let create := ps.filter (fun sec => kind == 1 || !(isTeardown sec))
  let rows : List Bool :=
    [headerOk bs kind,
     s.signedByOperator bs,
     imgGrade bs == s.ident.grade || imgGrade bs == 3,
     (if kind = 1 then dev.length == 1 && pm.length == 1 && decide (ps.length ≤ 8) && ss.length == 2 + ps.length
      else ps.length == 1 && ss.length == 1) &&
       dev.all (fun b => b.length == 16) && pm.all (fun b => b.length == 8) && ps.all (fun b => b.length == 112),
     kind != 1 ||
       ((List.range 4).all (fun k => port (2 * k) % 4 == port (2 * k + 1) % 4 &&
          port (2 * k) / 4 % 2 != port (2 * k + 1) / 4 % 2) &&
        distinct ((List.range 4).map (fun k => port (2 * k) % 4))),
     kind != 1 || decide (imgField (dev.headD []) 0 4 % 1024 ≤ imgField (dev.headD []) 0 4 / 1024 % 1024),
     create.all (fun sec => secPacks sec != 0 && domSizeOk (bitCount (secStacks sec))) &&
       disjoint (create.map secPacks) && disjoint (create.map secStacks),
     create.all (fun sec =>
       decide (1 ≤ secNdom sec) && decide (secNdom sec ≤ 12) && (doms sec).all (fun d => domSizeOk (bitCount d)) &&
         disjoint (doms sec) && (doms sec).foldl Nat.lor 0 == secStacks sec),
     create.all (fun sec => (List.range 16).all (fun p =>
       if bitAt (secPacks sec) p then bitAt (secRange sec p) 31 else secRange sec p == 0)),
     distinct (ps.map secPart)]
  match (rows.zip (List.range 10)).find? (fun x => !x.1) with
  | some x => x.2 + 1
  | none => 0

/-! Clearing state. -/

/-- Every register field of a range of addresses at its reset value. -/
def resetRegs (s : State) (a n : Nat) : State :=
  { s with regs := s.regs.filter (fun x => !(decide (a ≤ x.1 / 64) && decide (x.1 / 64 < a + n))) }

/-- The memories and units of a pack as classes 8 and 9 of R493 reset them: scratch, pack buffer, tiles with their
registers, queues, counters, Retrievers. -/
def resetPack (s : State) (p : Nat) : State :=
  let s := { s with
    mem := mzero (mzero s.mem (scratchBase (9 * p)) (9 * 0x400000)) (packBufBase p) 0x800000
    ctrs := s.ctrs.filter (fun x => x.1 / 1024 != p)
    rets := s.rets.filter (fun x => x.1 / 4 != p) }
  let s := resetRegs s (tileBase (9 * p)) (9 * 0x10000)
  let s := resetRegs s (packBase p) 0x2000
  let b := syncBase p
  let s := (s.wr b SYNC_CTRL.OVF_EVT 1).wr b SYNC_STAT.OVF 0
  let s := (s.wr b SYNC_STAT.OVF_IDX 0).wr b SYNC_STAT.HOWL_DONE 0
  let s := resetRegs s (packCenBase p) 0x1000
  let qs := (List.range 9).foldr (fun i r => qKey (.cq (9 * p + i)) :: qKey (.mq (9 * p + i)) :: r)
    [qKey (.gq p), qKey (.pmq p)]
  let s := { s with queues := s.queues.filter (fun x => !(qs.contains x.1)) }
  forEach (List.range 9) s (fun s i => s.setT (9 * p + i) { cycBase := s.aclk (packDie p) })

/-- The collective engine of a pack: contexts and control return to default, its counters and logs are kept (class 15). -/
def resetEngine (s : State) (p : Nat) : State :=
  let b := collBase p
  (s.wr b COLL_CTRL.RETRY_US 2).wr b COLL_CTRL.ERR_EVT 1

/-- Transfers and host accesses of the commands of a pack are dropped. -/
def dropWork (s : State) (p : Nat) : State :=
  let gone := (s.haccs.filter (fun x => x.2.pack == p)).map Prod.fst
  { s with
    xfers := s.xfers.filter (fun x => !(x.2.pack == p && (match x.2.owner with
      | .cmd _ _ _ => true
      | _ => false)))
    haccs := s.haccs.filter (fun x => !(gone.contains x.1))
    hpieces := s.hpieces.filter (fun x => !(gone.contains x.2.acc)) }

/-- The loads and stores of a partition through board addresses that are under way, or held for R230, end with DENIED, and no
packet of a held one is sent (R441, R444, R489). -/
def denyFar (s : State) (k : Nat) : State :=
  let (mine, others) := s.xfers.partition (fun x => x.2.part == some k)
  forEach mine { s with xfers := others } (fun s x => ownerDone s x.2.owner stDenied x.2.dst [])

/-- The stopping of a partition's work (R444 step 2, R489 steps 1 to 3): queues killed, open collectives aborted, copies
dropped, and a Howl being written completed. -/
def stopPart (s : State) (k : Nat) : State :=
  let s := forEach (s.partQueues k) s killQueue
  let s := collAbort s k 0xFFFF
  let s := denyFar (forEach (s.partPacks k) s dropWork) k
  howlDone s k

/-- Every partition-p register of SHAPE_ but PCFG, CEN_ and TRC_ returns to default (class 10). -/
def resetPartRegs (s : State) (k : Nat) : State :=
  let s := resetRegs s (shapePBase k + 8) 0x3F8
  let s := resetRegs s (cenBase k) 0x1000
  let s := resetRegs s (trcPBase k) 0x1000
  { s with mem := mzero s.mem (stagingBase k) 0x1000 }

/-- The PCIe function of LDn is reset (R489 step 6): its configuration, its MSI-X table, its sessions and its stream. -/
def resetFn (s : State) (n : Nat) : State :=
  let s := endIdeIo s n
  let s := s.setFn n { (s.fn n) with
    cmd := 0, msix := 0, cfg := [], bar0 := 0, bar2 := 0, bar4 := 0, version := false, exchange := false, session := false }
  let s := { s with msixOpen := tdel s.msixOpen n, msixPend := tdel s.msixPend n, msixTab := s.msixTab.filter (fun x => x.1 / 8192 != n) }
  let b := cxlpLBase n
  (s.wr b CXLP_LDSTAT.BME 0).wr b CXLP_LDCTRL.IDE_REQ 0

/-- Partition reset, the steps of R489. -/
def partReset (s : State) (k : Nat) : State :=
  let s := stopPart s k
  let s := forEach (s.partPacks k) s (fun s p => resetEngine (resetPack s p) p)
  let s := resetPartRegs s k
  let p := s.part k
  let s := s.setP k { life := p.life, jdom := p.jdom, count := p.count, section_ := p.section_, howls := p.howls }
  let s := resetFn (baseMapping s k) k
  -- its queues enter phase 0 (R404)
  if s.active k then enterPhase s k 0 else s

/-- A function-level reset of LDn (R489); one that arrives in an activation window is deferred (R509). -/
def flr (s : State) (k : Nat) : State :=
  if !s.hostOpen ∨ !(s.offered k) ∨ 8 ≤ k then s
  else if s.kn.fwState = 3 then
    if s.kn.deferParts.contains k then s
    else { s with kn := { s.kn with deferParts := s.kn.deferParts ++ [k] } }
  else partReset s k

/-! The XTS keys while the compute logic is held in reset or off (R439, R490): AES-256-GCM under the KWK, with the partition
number and its creation count as the IV (DESIGN CHOICE, log 140). -/

def wrapIv (k count : Nat) : List Nat := beBytes 4 k ++ beBytes 8 count

/-- A key of 64 bytes under the keystream of the KWK. -/
def wrapMask (kwk : Nat) (iv bs : List Nat) : List Nat :=
  xorBytes bs ((List.range 4).foldr (fun i r => aesEnc (aesKeys (beBytes 32 kwk)) (iv ++ beBytes 4 (2 + i)) ++ r) [])

/-- The blob of a key: its cipher text and tag. -/
def wrapKey (kwk : Nat) (iv : List Nat) (key : Nat) : List Nat :=
  let c := wrapMask kwk iv (beBytes 64 key)
  c ++ gcmTag (aesKeys (beBytes 32 kwk)) iv [] c

/-- The key of a blob whose tag holds. -/
def unwrapKey (kwk : Nat) (iv blob : List Nat) : Option Nat :=
  let c := blob.take 64
  if gcmTag (aesKeys (beBytes 32 kwk)) iv [] c = blob.drop 64 then some (beNat (wrapMask kwk iv c)) else none

/-- The HBM controllers lose their keys, which stay as blobs. -/
def wrapKeys (s : State) : State :=
  { s with kn := { s.kn with
    xts := [], blobs := s.kn.xts.map (fun x => (x.1, wrapKey (Config.kwk s.ident.uid) (wrapIv x.1 (s.part x.1).count) x.2)) } }

/-- The keys are loaded again from their blobs, while the engine holds the KWK. -/
def unwrapKeys (s : State) : State :=
  { s with kn := { s.kn with
    blobs := []
    xts := if !s.kn.kwk then s.kn.xts else s.kn.xts ++ s.kn.blobs.filterMap (fun x =>
      (unwrapKey (Config.kwk s.ident.uid) (wrapIv x.1 (s.part x.1).count) x.2).map (fun key => (x.1, key))) } }

/-! Creation (R443). -/

/-- Steps 2 and 3 of the creation of the first partition that waits: key, zero fill, zeroed packs. -/
def startFill (s : State) : State :=
  match s.kn.creating with
  | [] => s
  | sec :: _ =>
    let k := secPart sec
    let (x, s) := knlDraw s
    let s := { s with kn := { s.kn with xts := tset s.kn.xts k (x % 2 ^ 512) } }
    let s := s.setP k { count := (s.part k).count, life := 1, section_ := sec, jdom := secJdom sec }
    forEach ((List.range 16).filter (fun p => bitAt (secPacks sec) p)) s (fun s p =>
      resetRegs (resetPack s p) (packBase p + 0x2000) 0x2000)

/-- The stacks of one domain of a section: each gets the domain's registers (R252, R276). -/
def loadDomain (s : State) (k mask : Nat) : State :=
  let hs := (List.range 12).filter (fun h => bitAt mask h)
  forEach (hs.zip (List.range 12)) s (fun s x =>
    let b := hbmcBase x.1
    let s := (s.wr b HBMC_DOMAIN.PART k).wr b HBMC_DOMAIN.VALID 1
    let s := (s.wr b HBMC_DOMAIN.DSIZE hs.length).wr b HBMC_DOMAIN.DIDX x.2
    s.wr b HBMC_DOMAIN.DMASK mask)

/-- The zero fill of the partition being created completes: steps 4 and 5 of R443, and the next creation of the command
begins (R384). -/
def zeroFillDone (s : State) : State :=
  match s.kn.creating with
  | [] => s
  | sec :: rest =>
    let k := secPart sec
    let hbms := (List.range 12).filter (fun h => bitAt (secStacks sec) h)
    let s := forEach hbms s (fun s h => { s with
      mem := mzero s.mem (h * 2 ^ 36) (2 ^ 36)
      herr := s.herr.filter (fun x => x.1 / 2 ^ 31 != h) })
    let s := forEach ((List.range (secNdom sec)).map (secDom sec)) s (fun s m => loadDomain s k m)
    let s := forEach ((List.range 16).filter (fun p => bitAt (secPacks sec) p)) s (fun s p =>
      let r := secRange sec p
      let b := syncBase p
      ((s.wr b SYNC_RANGE.FIRST (r % 1024)).wr b SYNC_RANGE.LAST (r / 65536 % 1024)).wr b SYNC_RANGE.VALID (r / 2 ^ 31))
    let s := s.wr rteBase (RTE_SHARE.SHARE k) (secShare sec)
    let s := s.wr shapeBase (SHAPE_AMODE.FIFO k) (secFlags sec / 4)
    let s := s.wr shapeBase (SHAPE_AMODE.LIST k) (secFlags sec / 8)
    let b := shapePBase k
    let s := resetPartRegs s k
    let s := (s.wr b SHAPE_PCFG.PACKS (secPacks sec)).wr b SHAPE_PCFG.STACKS (secStacks sec)
    let s := baseMapping s k
    let s := s.wr b SHAPE_PCFG.VALID 1
    let parts := s.rd shapeBase SHAPE_STAT.PARTS
    let s := s.wr shapeBase SHAPE_STAT.PARTS (Nat.lor parts (2 ^ k))
    let s := s.setP k { s.part k with life := 2, count := ((s.part k).count + 1) % 2 ^ 32 }
    -- its queues enter phase 0 (R404)
    let s := enterPhase s k 0
    let s := refreshOffered s
    startFill { s with kn := { s.kn with creating := rest } }

/-! Teardown (R444). -/

/-- The teardown of an existing partition begins: steps 2 and 3 of R444. The partition is tearing down, and LDn is still
offered. -/
def teardownBegin (s : State) (k : Nat) : State :=
  let s := (stopPart s k).wr (shapePBase k) SHAPE_PCFG.VALID 0
  s.setP k { s.part k with life := 3 }

/-- Its end: steps 4 and 5 of R444. -/
def teardownEnd (s : State) (k : Nat) : State :=
  let packs := s.partPacks k
  let hbms := s.partStacks k
  let b := shapePBase k
  let s := forEach hbms s (fun s h => resetRegs s (hbmcBase h + 8) 8)
  let s := { s with kn := { s.kn with xts := tdel s.kn.xts k, blobs := tdel s.kn.blobs k } }
  let s := forEach packs s (fun s p => resetRegs (resetPack s p) (packBase p + 0x2000) 0x2000)
  let s := resetPartRegs s k
  let s := resetRegs s b 8
  let s := baseMapping (s.setP k { count := (s.part k).count }) k
  let s := s.wr rteBase (RTE_SHARE.SHARE k) 32
  let s := (s.wr shapeBase (SHAPE_AMODE.FIFO k) 0).wr shapeBase (SHAPE_AMODE.LIST k) 0
  let s := resetFn s k
  let s := resetRegs (s.setFn k {}) (cxlpLBase k) 0x800
  let parts := s.rd shapeBase SHAPE_STAT.PARTS
  let s := s.wr shapeBase SHAPE_STAT.PARTS (if bitAt parts k then parts - 2 ^ k else parts)
  refreshOffered s

/-- The partitions that a command tears down. -/
def State.tearing (s : State) : List Nat := (List.range 8).filter (fun k => (s.part k).life == 3)

/-! Base image (R383, R384). -/

/-- The settings of port n that a base image gives: configuration bits and coordinate word. -/
def State.portWord (s : State) (n : Nat) : Nat × Nat :=
  let b := lnkBase n
  (s.rd b LNK_CFG.AXIS + 4 * s.rd b LNK_CFG.DIR + 8 * s.rd b LNK_CFG.AUTO + 16 * s.rd b LNK_CFG.MAXW + 64 * s.rd b LNK_CFG.EN,
   s.rd b LNK_COORD.COORD + 2 ^ 19 * s.rd b LNK_COORD.WSIZE + 2 ^ 29 * s.rd b LNK_COORD.WCHAIN +
     2 ^ 31 * s.rd b LNK_COORD.VALID)

/-- The coordinate word of LNK_COORD from the straps and the DEVICE section (R301, R381). -/
def State.coordWord (s : State) (dev : Nat) : Nat :=
  let st := s.kn.straps
  mkCoord (dev % 1024) (st / 16 % 4) (st / 4 % 4) (st % 4) + 2 ^ 19 * (dev / 1024 % 1024) + 2 ^ 29 * (dev / 2 ^ 20 % 2) +
    2 ^ 31

/-- The DEVICE and PORTMAP sections of a base image take effect (R383, R384): a port whose settings change is taken down
and trains again, or enters DISABLED. -/
def applyPorts (s : State) (dev : Nat) (ports : List Nat) : State :=
  let cw := s.coordWord dev
  let changed := (List.range 8).filter (fun n => s.portWord n != (ports.getD n 0 % 128, cw))
  let s := forEach changed s (fun s n =>
    if s.training n || s.lkState n == lkACTIVE then leaveLink s n rsHost else s)
  let s := forEach (List.range 8) s (fun s n =>
    let b := lnkBase n
    let v := ports.getD n 0
    let s := (s.wr b LNK_CFG.AXIS v).wr b LNK_CFG.DIR (v / 4)
    let s := (s.wr b LNK_CFG.AUTO (v / 8)).wr b LNK_CFG.MAXW (v / 16)
    let s := s.wr b LNK_CFG.EN (v / 64)
    let s := (s.wr b LNK_COORD.COORD cw).wr b LNK_COORD.WSIZE (cw / 2 ^ 19)
    (s.wr b LNK_COORD.WCHAIN (cw / 2 ^ 29)).wr b LNK_COORD.VALID 1)
  forEach changed s (fun s n => toDetect (s.wr (lnkBase n) LNK_STAT.EDIR (ports.getD n 0 / 4)) n)

/-- Put PARTITION sections in ascending order of their partitions. -/
def insertSec (sec : List Nat) : List (List Nat) → List (List Nat)
  | [] => [sec]
  | x :: r => if secPart sec ≤ secPart x then sec :: x :: r else x :: insertSec sec r

/-- An accepted base image is applied and its creations begin (R383, R384). -/
def applyBase (s : State) (bs : List Nat) : State :=
  let ss := (imgSections bs).getD []
  let dev := imgField ((bodiesOf ss 1).headD []) 0 4
  let s := applyPorts s dev ((bodiesOf ss 2).headD [])
  let s := s.wr shapeBase SHAPE_ID.ID (imgId bs)
  let s := (s.wr shapeBase SHAPE_STAT.LOADED 1).wr shapeBase SHAPE_STAT.CLOSED 1
  let secs := (bodiesOf ss 3).foldr insertSec []
  startFill { s with kn := { s.kn with base := bs.take (imgLength bs), creating := secs } }

end Sys2Proof.Machine
end

