-- ==== Sys2Proof/Machine/Kennel.lean ====
section
/-! DEFINITION. Kennel's mailbox (14_security_partitions.md, R436 to R461; R561), firmware update (16_reset_boot_firmware.md,
R500 to R510), measurements (R448, R449) and SPDM (R447). A mailbox command is latched by GO, runs once by its own row, and
ends with KNL_DONE. -/

namespace Sys2Proof.Machine

def State.debug (s : State) : Bool := s.bit knlBase KNL_STATE.DEBUG

/-- A write of GO (R456, R457): the command is accepted, or COLLIDE is set while one runs. -/
def mailboxGo (s : State) : State :=
  if s.bit knlBase KNL_MBSTAT.BUSY then s.wr knlBase KNL_MBSTAT.COLLIDE 1
  else { s.wr knlBase KNL_MBSTAT.BUSY 1 with
    kn := { s.kn with running := some (s.rd knlBase KNL_MBCMD.OPCODE), result := none } }

/-- The input bytes of the mailbox. -/
def State.mbInput (s : State) : List Nat := mread s.mem knlBuf (s.rd knlBase KNL_MBCMD.LEN)

def State.mbLen (s : State) : Nat := s.rd knlBase KNL_MBCMD.LEN

/-- Run a mailbox command once: its opcode is latched and it has no result yet. -/
def mbRun (s : State) (op : Nat) (f : State → State) : State :=
  if s.kn.running = some op ∧ s.kn.result = none then f s else s

/-- The assigned opcodes (R458, R504). -/
def mbAssigned (op : Nat) : Bool :=
  [0x01, 0x02, 0x03, 0x10, 0x11, 0x20, 0x21, 0x30, 0x31, 0x40, 0x41, 0x42, 0x43, 0x44, 0x45].contains op

/-! Identity (R446, R448, R458). -/

/-- The image of a type that runs, and the one in the boot flash. -/
def State.runImg (s : State) (ty : Nat) : FwImg := tgetD s.kn.run ty {}
def State.flashImg (s : State) (ty : Nat) : FwImg := tgetD s.kn.flash ty {}

/-- Fuse steps of an image type (R502). -/
def State.svnCount (s : State) (ty : Nat) : Nat := tgetD s.ident.svn ty 0

/-- TILE_PRESENT as 18 bytes. -/
def State.tilePresentBytes (s : State) : List Nat :=
  (List.range 18).map (fun i => (List.range 8).foldl (fun x b => x + (if s.tilePresent (8 * i + b) then 2 ^ b else 0)) 0)

def digestBytes (d : Nat) : List Nat := beBytes 32 (d % 2 ^ 256)

/-- Fuse bits of the operator-key slots written. -/
def State.opSlots (s : State) : Nat := (List.range 4).foldl (fun x i => x + (if (tget s.ident.opKeys i).isSome then 2 ^ i else 0)) 0

/-- The SHA-256 of measurements 1 to 7 as they stood at boot, over their bytes in order of the index (R446; log 112). A boot
is in the production state. -/
def State.bootDigest (s : State) : Nat :=
  beNat (sha256 (digestBytes Config.romDigest ++ (s.kn.boot.take 4).foldr (fun d r => digestBytes d ++ r) [] ++ s.kn.boot.drop 4 ++
    [s.ident.grade, s.ident.stepping] ++ s.tilePresentBytes ++ [0]))

/-- Measurement i of R448: whether it is a raw value, and its bytes. -/
def State.measurement (s : State) (i : Nat) : Bool × List Nat :=
  if i = 1 then (false, digestBytes Config.romDigest)
  else if i ≤ 5 then (false, digestBytes (s.flashImg i).digest)
  else if i = 6 then (true, (List.range 4).map (fun j => s.svnCount (j + 2)))
  else if i = 7 then (true, [s.ident.grade, s.ident.stepping] ++ s.tilePresentBytes ++ [b2n s.debug])
  else if i = 8 then
    (false, sha256 ((List.range 4).foldr (fun j r =>
      (match tget s.ident.opKeys j with
       | some m => sha256 (beBytes 384 m)
       | none => List.replicate 32 0) ++ [b2n (bitAt s.ident.opRev j)] ++ r) []))
  else if i = 9 then
    (false, if s.kn.base.isEmpty then List.replicate 32 0 else sha256 (s.kn.base ++ leBytes 4 (s.rd shapeBase SHAPE_ID.ID)))
  else if i = 18 then (true, [(s.runImg 2).llvl, (s.runImg 2).clvl])
  else
    let p := s.part (i - 10)
    (true, [p.life] ++ leBytes 4 p.count ++ leBytes 4 p.jdom ++
      (if p.section_.isEmpty then List.replicate 32 0 else sha256 p.section_))

def mbGetInfo (s : State) : State :=
  if s.mbLen ≠ 0 then mbResult s krLen 0 []
  else
    let v := (List.range 4).foldr (fun i r => leBytes 4 (s.runImg (i + 2)).version ++ r) []
    mbResult s krOk 0 (leBytes 8 s.ident.uid ++
      [s.ident.grade, s.ident.stepping, b2n s.debug, s.rd shapeBase SHAPE_STAT.PARTS] ++
      leBytes 4 (s.rd shapeBase SHAPE_ID.ID) ++ v ++ (List.range 4).map (fun i => (s.runImg (i + 2)).svn) ++
      [(s.runImg 2).llvl, (s.runImg 2).clvl, 0, 0])

/-- Kennel makes the BAK and its certificate during boot (R446). -/
def makeBak (s : State) : State :=
  let r := s.kn.drbg
  let s := (knlDraw s).2
  { s with kn := { s.kn with
    bak := some r, bootKey := r, boot := [2, 3, 4, 5].map (fun i => (s.flashImg i).digest) ++ [2, 3, 4, 5].map s.svnCount
    kwk := true, scope := 0 } }

/-- The slot-0 chain (R446): three certificates of the device, and the boot attestation certificate over the public key of
the BAK and the measurements of the boot. -/
def State.certByteAt (s : State) (i : Nat) : Nat :=
  let n := Config.certLen s.ident.uid
  if i < n then (Config.certByte s.ident.uid i).toNat
  else (Config.bootCertByte s.ident.uid (Config.bakKey (drbgAt s.kn.bootKey)) s.bootDigest (i - n)).toNat
def State.chainLen (s : State) : Nat :=
  Config.certLen s.ident.uid + Config.bootCertLen s.ident.uid (Config.bakKey (drbgAt s.kn.bootKey)) s.bootDigest

/-- Up to n bytes of the slot-0 chain from an offset (R446, R458). -/
def State.certBytes (s : State) (off n : Nat) : List Nat :=
  (List.range (min n (s.chainLen - off))).map (fun i => s.certByteAt (off + i))

/-- GET_CERT (R458, R459): no byte from the chain's end on, and past it the offset is out of range. -/
def mbGetCert (s : State) : State :=
  if s.mbLen ≠ 4 then mbResult s krLen 0 []
  else
    let off := leNat s.mbInput
    if s.chainLen < off then mbResult s krMeas 0 [] else mbResult s krOk 0 (s.certBytes off 3840)

def mbGetMeas (s : State) : State :=
  if s.mbLen ≠ 1 then mbResult s krLen 0 []
  else
    let i := leNat s.mbInput
    if i = 0 ∨ 18 < i then mbResult s krMeas 0 []
    else
      let (raw, v) := s.measurement i
      mbResult s krOk 0 ([b2n raw, 0] ++ leBytes 2 v.length ++ v)

/-! Operator keys (R440). -/

/-- Is a message signed by a written, unrevoked key in another slot. -/
def State.signedByOther (s : State) (slot : Nat) (msg sig : List Nat) : Bool :=
  s.ident.opKeys.any (fun k => k.1 != slot && !(bitAt s.ident.opRev k.1) && rsaVerify k.2 msg sig)

def mbEnroll (s : State) : State :=
  if s.mbLen ≠ 388 ∧ s.mbLen ≠ 772 then mbResult s krLen 0 []
  else
    let bs := s.mbInput
    let slot := bs.getD 0 0
    let first := s.ident.opKeys.isEmpty
    if 4 ≤ slot ∨ !(zeros (slice bs 1 3)) ∨ (tget s.ident.opKeys slot).isSome ∨
        !(first || (s.mbLen == 772 && s.signedByOther slot (bs.take 388) (slice bs 388 384))) then mbResult s krOpkey 0 []
    else
      let s := { s with ident := { s.ident with opKeys := tset s.ident.opKeys slot (beNat (slice bs 4 384)) } }
      mbResult s krOk 0 []

def mbRevoke (s : State) : State :=
  if s.mbLen ≠ 388 then mbResult s krLen 0 []
  else
    let bs := s.mbInput
    let slot := bs.getD 0 0
    let liveKeys := (s.ident.opKeys.filter (fun k => !(bitAt s.ident.opRev k.1))).map Prod.fst
    if !(zeros (slice bs 1 3)) ∨ !(liveKeys.contains slot) ∨ liveKeys.length ≤ 1 ∨
        !(s.signedByOther slot (bs.take 4) (slice bs 4 384)) then mbResult s krOpkey 0 []
    else
      let s := { s with ident := { s.ident with opRev := Nat.lor s.ident.opRev (2 ^ slot) } }
      mbResult s krOk 0 []

/-! Images (R380 to R384, R442 to R444, R561). What a command does to the compute logic waits while a warm reset holds it
(R490): the command is run again once the reset has ended (DESIGN CHOICE, log 141). -/

/-- Does any partition exist or wait for its creation. -/
def State.anyPart (s : State) : Bool := (List.range 8).any (fun k => (s.part k).life != 0)

/-- The results that come before the state of the device is compared (R561): length, operator key, image rules. -/
def State.imageResult (s : State) (kind : Nat) : Nat × Nat :=
  let bs := s.mbInput
  if s.debug then (krDebug, 0)
  else if s.mbLen < 64 ∨ imgLength bs + 384 ≠ s.mbLen then (krLen, 0)
  else if s.ident.opKeys.isEmpty then (krOpkey, 0)
  else
    let row := s.imageCheck bs kind
    if row ≠ 0 then (krCheck, row) else (krOk, 0)

/-- The PARTITION sections of the image in the buffer. -/
def State.mbSections (s : State) : List (List Nat) := bodiesOf ((imgSections s.mbInput).getD []) 3

def mbLoadBase (s : State) : State :=
  let (res, row) := s.imageResult 1
  if res ≠ krOk then mbResult s res row []
  else if s.anyPart then mbResult s krState 0 []
  else if !(distinct (s.mbSections.map secJdom)) then mbResult s krJdomDup 0 []
  else if s.shp.warm then s
  else mbResult (applyBase s s.mbInput) krOk 0 []

def mbPartReq (s : State) : State :=
  let (res, row) := s.imageResult 2
  if res ≠ krOk then mbResult s res row []
  else
    let bs := s.mbInput
    let sec := s.mbSections.headD []
    let k := secPart sec
    let others := (List.range 8).filter (fun j => j != k && (s.part j).life != 0)
    if !(s.bit shapeBase SHAPE_STAT.LOADED) ∨ imgId bs ≠ s.rd shapeBase SHAPE_ID.ID then mbResult s krImage 0 []
    else if isTeardown sec then
      if (s.part k).life = 0 then mbResult s krNoPart 0 []
      else if s.shp.warm then s else mbResult (teardownBegin s k) krOk 0 []
    else if (s.part k).life ≠ 0 then mbResult s krExists 0 []
    else if others.any (fun j => Nat.land (s.rd (shapePBase j) SHAPE_PCFG.PACKS) (secPacks sec) != 0 ||
        Nat.land (s.rd (shapePBase j) SHAPE_PCFG.STACKS) (secStacks sec) != 0) then mbResult s krInUse 0 []
    else if others.any (fun j => (s.part j).jdom == secJdom sec) then mbResult s krJdomDup 0 []
    else if s.shp.warm then s
    else mbResult (startFill { s with kn := { s.kn with creating := [sec] } }) krOk 0 []

/-! Debug (R450 to R452). -/

def mbChallenge (s : State) : State :=
  if s.mbLen ≠ 0 then mbResult s krLen 0 []
  else
    let (x, s) := knlDraw s
    let n := leBytes 32 x
    mbResult { s with kn := { s.kn with nonce := some n } } krOk 0 n

/-- The checks of a debug token (R450, R451). -/
def State.tokenOk (s : State) (bs : List Nat) : Bool :=
  imgField bs 0 4 == 0x44544B4E && imgField bs 4 4 == 1 && imgField bs 8 8 == s.ident.uid &&
    s.kn.nonce == some (slice bs 0x10 32) && decide (imgField bs 0x30 4 < 16) && zeros (slice bs 0x34 12) &&
    rsaVerify Config.debugKey (bs.take 0x40) (slice bs 0x40 384)

/-- Entry into the debug state, once the partitions are torn down (steps 2 to 4 of R451): link, IDE and XTS keys and the BAK
are destroyed and every port drops to DETECT, the KWK is blocked, and the ports of the token's scope open. -/
def enterDebug (s : State) (scope : Nat) : State :=
  let s := forEach (List.range 8) s (fun s n =>
    if s.lkState n = lkDISABLED then s else toDetect (leaveLink s n rsHost) n)
  let s := endIde s
  { s.wr knlBase KNL_STATE.DEBUG 1 with kn := { s.kn with bak := none, kwk := false, xts := [], blobs := [], scope := scope } }

def mbUnlock (s : State) : State :=
  if s.debug then mbResult s krDebug 0 []
  else if s.mbLen ≠ 448 then mbResult s krLen 0 []
  else
    let ok := s.tokenOk s.mbInput
    if ok && s.shp.warm then s else
    let s := { s with kn := { s.kn with nonce := none } }
    let live := (List.range 8).filter (fun k => (s.part k).life != 0)
    if ok then mbResult (forEach live s teardownBegin) krOk 0 [] else mbResult s krToken 0 []

/-! Firmware update (R504 to R510). -/

/-- The largest image of a type (R500). -/
def fwLimit (ty : Nat) : Nat :=
  match ty with
  | 2 => 4 * 2 ^ 20
  | 3 => 512 * 1024
  | 4 => 4 * 2 ^ 20
  | 5 => 8 * 2 ^ 20
  | _ => 0

def setFw (s : State) (st ty len : Nat) (blocks : Tbl (List Nat)) (dig : List Nat) : State :=
  { s with kn := { s.kn with fwState := st, fwType := ty, fwLen := len, fwBlocks := blocks, fwDigest := dig, fwNew := none } }

def mbFwBegin (s : State) : State :=
  if s.debug then mbResult s krFwDebug 0 []
  else if s.mbLen ≠ 8 then mbResult s krLen 0 []
  else
    let bs := s.mbInput
    let ty := bs.getD 0 0
    let n := imgField bs 4 4
    if ty < 2 ∨ 5 < ty ∨ fwLimit ty < n then mbResult s krFwType 0 []
    else mbResult (setFw s 1 ty n [] []) krOk 0 []

/-- Blocks of the image being received, and the length of one. -/
def State.fwBlockCount (s : State) : Nat := (s.kn.fwLen + 65535) / 65536
def State.fwBlockLen (s : State) (i : Nat) : Nat := min 65536 (s.kn.fwLen - 65536 * i)

/-- FW_BLOCK: Kennel fetches the block as an access of the FMLD's function (R476, R505), unless a warm reset holds the host port.
While the fetch is under way, `ans` is the host's answer to its oldest piece outstanding. -/
def mbFwBlock (s : State) (ans : HostAns) : State :=
  if s.debug then mbResult s krFwDebug 0 []
  else if s.mbLen ≠ 24 then mbResult s krLen 0 []
  else
    let bs := s.mbInput
    let i := imgField bs 0 4
    let n := imgField bs 4 4
    if s.kn.fwState ≠ 1 then mbResult s krFwState 0 []
    else if s.fwBlockCount ≤ i ∨ n ≠ s.fwBlockLen i then mbResult s krFwBlockNum 0 []
    else if s.shp.warm then s
    else match s.haccs.find? (fun x => x.2.ld == 8) with
      | none =>
        newHostAcc s { ld := 8, kind := .read, addr := imgField bs 0x10 8, len := n, owner := .firmware i (imgField bs 8 4) }
      | some (id, _) =>
        match s.hpieces.find? (fun p => p.2.acc == id) with
        | some (piece, _) => hostCompletion s piece ans
        | none => s

/-- The staged image. -/
def State.fwImage (s : State) : List Nat := bufBytes s.kn.fwBlocks

/-- The header checks of R501 for the staged image. -/
def State.fwHeaderOk (s : State) (bs : List Nat) : Bool :=
  imgField bs 0 4 == 0x54484657 && imgField bs 4 4 == 1 && bs.getD 8 0 == s.kn.fwType &&
    (s.kn.fwType == 2 || (bs.getD 0xA 0 == 0 && bs.getD 0xB 0 == 0)) && zeros (slice bs 0x15 0xEB) &&
    s.kn.fwLen == 256 + imgField bs 0x10 4 + 384 && decide (s.kn.fwLen ≤ fwLimit s.kn.fwType)

/-- The first check of R506 that fails, or OK. -/
def State.fwCheck (s : State) : Nat :=
  let bs := s.fwImage
  let n := s.kn.fwLen - 384
  let svn := bs.getD 9 0
  let far := fun (x y : Nat) => decide (x + 1 < y) || decide (y + 1 < x)
  if s.kn.fwBlocks.length ≠ s.fwBlockCount then krFwMissing
  else if !(s.fwHeaderOk bs) then krFwSig
  else if !(rsaVerify Config.firmwareKey (bs.take n) (bs.drop n)) then krFwSig
  else if !(bitAt (bs.getD 0x14 0) s.ident.stepping) then krFwStep
  else if svn < s.svnCount s.kn.fwType ∨ 64 < svn then krFwSvn
  else if s.kn.fwType = 2 ∧ (far (bs.getD 0xA 0) (s.runImg 2).llvl ∨ far (bs.getD 0xB 0) (s.runImg 2).clvl) then krFwLevel
  else krOk

def mbFwVerify (s : State) : State :=
  if s.debug then mbResult s krFwDebug 0 []
  else if s.mbLen ≠ 0 then mbResult s krLen 0 []
  else if s.kn.fwState ≠ 1 then mbResult s krFwState 0 []
  else
    let r := s.fwCheck
    if r ≠ krOk then mbResult s r 0 []
    else
      let d := sha256 s.fwImage
      mbResult { s with kn := { s.kn with fwState := 2, fwDigest := d } } krOk 0 d

/-- The image that an activation programs. -/
def State.fwNewImg (s : State) : FwImg :=
  let bs := s.fwImage
  { version := imgField bs 0xC 4, svn := bs.getD 9 0, llvl := bs.getD 0xA 0, clvl := bs.getD 0xB 0, digest := beNat s.kn.fwDigest }

/-- FW_ACTIVATE opens the window, erases the image's region and programs it (steps 1 to 3 of R507): `ok1` and `ok2` say
whether the first and the second readback match. KNL_DONE ends the window. -/
def mbFwActivate (s : State) (ok1 ok2 : Bool) : State :=
  if s.debug then mbResult s krFwDebug 0 []
  else if s.mbLen ≠ 32 then mbResult s krLen 0 []
  else if s.kn.fwState ≠ 2 then mbResult s krFwState 0 []
  else if s.mbInput ≠ s.kn.fwDigest then mbResult s krFwDigest 0 []
  else
    let ty := s.kn.fwType
    let s := { s with kn := { s.kn with
      fwState := 3
      fwAt := s.clock
      fwNew := some (s.fwNewImg, ok1 || ok2)
      flash := tset s.kn.flash ty { s.flashImg ty with valid := false } } }
    mbResult s (if ok1 || ok2 then krOk else krFwFlash) 0 []

/-- The end of an activation window (steps 4 to 6 of R507): fuse steps, measurement, idle. -/
def endActivation (s : State) : State :=
  match s.kn.fwNew with
  | none => s
  | some (img, ok) =>
    let ty := s.kn.fwType
    let s := if ok then
        { s with
          kn := { s.kn with flash := tset s.kn.flash ty img }
          ident := { s.ident with svn := tset s.ident.svn ty (max (s.svnCount ty) img.svn) } }
      else s
    -- the timers of the device-level Leash did not count in the window, nor from a heartbeat in it (R529)
    let late := fun (beat : Nat) => s.clock - (s.kn.fwAt - beat)
    let s := { s with shp := { s.shp with knlBeat := late s.shp.knlBeat, hostBeat := late s.shp.hostBeat } }
    setFw s 0 0 0 [] []

def mbFwAbort (s : State) : State :=
  if s.mbLen ≠ 0 then mbResult s krLen 0 [] else mbResult (setFw s 0 0 0 [] []) krOk 0 []

def mbFwStatus (s : State) : State :=
  if s.mbLen ≠ 0 then mbResult s krLen 0 []
  else
    let vs := fun (f : Nat → FwImg) => (List.range 4).foldr (fun i r => leBytes 4 (f (i + 2)).version ++ r) []
    mbResult s krOk 0 ([s.kn.fwState, s.kn.fwType, 0, 0] ++ leBytes 4 s.fwBlockCount ++ leBytes 4 s.kn.fwBlocks.length ++
      vs s.runImg ++ vs s.flashImg)

/-! The end of a command. -/

/-- The last steps of a command that has come to its result: partitions that it tears down are gone (R444), an activation
window ends (R507), an accepted debug token takes effect (R451). -/
def mbLast (s : State) (op res : Nat) : State :=
  let s := endActivation (forEach s.tearing s teardownEnd)
  if op = 0x31 ∧ res = krOk then enterDebug s (imgField s.mbInput 0x30 4) else s

/-- DONE with its result and output (R456). An unassigned opcode ends with OPCODE, and a command that creates partitions
only after the last of them (R384). -/
def mbFinish (s : State) : State :=
  match s.kn.running with
  | none => s
  | some op =>
    let end_ := fun (s : State) (res detail : Nat) (out : List Nat) =>
      let s := { s with mem := mwrite s.mem knlBuf out, kn := { s.kn with running := none, result := none } }
      let s := (s.wr knlBase KNL_MBSTAT.BUSY 0).wr knlBase KNL_MBSTAT.DONE 1
      let s := (s.wr knlBase KNL_MBSTAT.RESULT res).wr knlBase KNL_MBSTAT.DETAIL detail
      raiseEv (s.wr knlBase KNL_MBSTAT.OUTLEN out.length) .knlDone none { detail := res }
    match s.kn.result with
    | some (res, detail, out) =>
      if !s.kn.creating.isEmpty ∨ (s.shp.warm ∧ (!s.tearing.isEmpty ∨ (op = 0x31 ∧ res = krOk))) then s
      else end_ (mbLast s op res) res detail out
    | none => if mbAssigned op then s else end_ s krOpcode 0 []

/-! SPDM (R447, R449, R452, R482). Message codes and layouts are those of SPDM 1.2 and of the DOE of PCIe (PRESUMED, log
80); the fields that the manual does not give are free values. -/

/-- A free value as bytes. -/
def freeBytes (s : State) (n : Nat) : State × List Nat :=
  let (x, s) := s.draw
  (s, leBytes n x)

/-- Does a function report a measurement index (R449). -/
def reports (n i : Nat) : Bool := n == 8 || decide (i ≤ 9) || i == 18 || i == 10 + n

/-- One measurement block: index, form, length and value. -/
def State.measBlock (s : State) (i : Nat) : List Nat :=
  let (raw, v) := s.measurement i
  [i, b2n raw] ++ leBytes 2 v.length ++ v

/-- A signature with the BAK (R447) over the transcript, whose digest is a free value: what SPDM signs is its own. -/
def bakSigned (s : State) : State × List Nat :=
  let (d, s) := s.draw
  (s, match s.kn.bak with
    | some r => beBytes 384 (Config.bakSign (drbgAt r) d)
    | none => [])

/-- CAPABILITIES: certificate, challenge, signed measurements, sessions and key exchange; no pre-shared keys and no mutual
authentication (R447). Timing, sizes and the other capabilities are free. -/
def spdmCapabilities (s : State) : State × List Nat :=
  let (x, s) := s.draw
  let (s, sizes) := freeBytes s 8
  (s, [0x12, 0x61, 0, 0, 0, x / 2 ^ 20 % 32, 0, 0] ++ leBytes 4 (726 + Nat.land x 421921) ++ sizes)

/-- ALGORITHMS: RSASSA-3072, SHA-256, secp384r1, AES-256-GCM (R447). -/
def spdmAlgorithms : List Nat :=
  [0x12, 0x63, 4, 0] ++ leBytes 2 52 ++ [1, 0] ++ leBytes 4 2 ++ leBytes 4 4 ++ leBytes 4 1 ++ List.replicate 16 0 ++
    [2, 0x20, 0x10, 0, 3, 0x20, 2, 0, 4, 0x20, 0, 0, 5, 0x20, 1, 0]

/-- The digest of the slot-0 chain. -/
def State.chainDigest (s : State) : List Nat := sha256 (s.certBytes 0 s.chainLen)

/-- GET_DIGESTS, GET_CERTIFICATE and GET_MEASUREMENTS, and an error for any other code. -/
def spdmCommon (s : State) (n : Nat) (req : List Nat) : State × List Nat :=
  let code := req.getD 1 0
  let error := fun (e : Nat) => (s, [0x12, 0x7F, e, code])
  match code with
  | 0x81 => (s, [0x12, 0x01, 0, 1] ++ s.chainDigest)
  | 0x82 =>
    let off := imgField req 4 2
    let bs := s.certBytes off (imgField req 6 2)
    if req.getD 2 0 % 16 = 0 then (s, [0x12, 0x02, 0, 0] ++ leBytes 2 bs.length ++ leBytes 2 (s.chainLen - off - bs.length) ++ bs)
    else error 0x01
  | 0xE0 =>
    let i := req.getD 3 0
    let ids := ((List.range 19).drop 1).filter (reports n)
    let blocks := if i = 0 then [] else if i = 0xFF then ids else ids.filter (fun j => j == i)
    if i ≠ 0 ∧ blocks.isEmpty then error 0x01
    else
      let body := blocks.foldr (fun j r => s.measBlock j ++ r) []
      let head := [0x12, 0x60, if i = 0 then ids.length else 0, 0, blocks.length] ++ leBytes 3 body.length ++ body
      if req.getD 2 0 % 2 = 1 then
        let (x, s) := knlDraw s
        let (s, sig) := bakSigned s
        (s, head ++ leBytes 32 x ++ [0, 0] ++ sig)
      else (s, head)
  | _ => error 0x07

/-- The answer to a plain SPDM request through function n. -/
def spdmPlain (s : State) (n : Nat) (req : List Nat) : State × List Nat :=
  let code := req.getD 1 0
  let f := s.fn n
  let error := fun (e : Nat) => (s, [0x12, 0x7F, e, code])
  if code = 0x84 then
    (s.setFn n { f with version := true, exchange := false, session := false }, [0x12, 0x04, 0, 0, 0, 1, 0, 0x12])
  else if s.debug then error 0x07
  else if !f.version then error 0x04
  else match code with
    | 0xE1 => spdmCapabilities s
    | 0xE3 => (s, spdmAlgorithms)
    | 0x83 =>
      if req.getD 2 0 ≠ 0 then error 0x01
      else
        let (x, s) := knlDraw s
        let (s, sum) := freeBytes s (if req.getD 3 0 = 0 then 0 else 32)
        let (s, sig) := bakSigned s
        (s, [0x12, 0x03, 0, 1] ++ s.chainDigest ++ leBytes 32 x ++ sum ++ [0, 0] ++ sig)
    | 0xE4 =>
      if req.getD 3 0 ≠ 0 then error 0x01
      else
        let (x, s) := knlDraw s
        let (e, s) := knlDraw s
        let (s, id) := freeBytes s 2
        let (s, sum) := freeBytes s (if req.getD 2 0 = 0 then 0 else 32)
        let (s, sig) := bakSigned s
        let (s, mac) := freeBytes s 32
        let q := ecPublic e
        (s.setFn n { f with exchange := true },
          [0x12, 0x64, 0, 0] ++ id ++ [0, 0] ++ leBytes 32 x ++ beBytes 48 q.1 ++ beBytes 48 q.2 ++ sum ++ [0, 0] ++ sig ++ mac)
    | 0xE5 => error 0x04
    | 0xEC => error 0x04
    | _ => spdmCommon s n req

/-- The answer to a request inside a secured message: FINISH of an exchange, and what an open session serves. -/
def spdmSecured (s : State) (n : Nat) (req : List Nat) : State × List Nat :=
  let code := req.getD 1 0
  let f := s.fn n
  let error := fun (e : Nat) => (s, [0x12, 0x7F, e, code])
  if s.debug then error 0x07
  else if !f.exchange ∧ !f.session then error 0x02
  else if code = 0xE5 then
    if f.exchange then (s.setFn n { f with exchange := false, session := true }, [0x12, 0x65, 0, 0]) else error 0x04
  else if !f.session then error 0x04
  else if code = 0xEC then (s.setFn n { f with session := false }, [0x12, 0x6C, 0, 0])
  else if [0x81, 0x82, 0xE0].contains code then spdmCommon s n req
  else error 0x04

/-- DOE Discovery: the data object types that a mailbox serves, by index: Discovery, CMA/SPDM, Secured CMA/SPDM. -/
def doeDiscovery (i : Nat) : List Nat := if i < 3 then [1, 0, i, (i + 1) % 3] else [0xFF, 0xFF, 0, 0]

/-- A data object reaches the DOE mailbox of a function (R482). One of a type that it does not serve is discarded. A secured
answer is shown by its plaintext. -/
def doeRequest (s : State) (d : DoeTo) (req : List Nat) : State :=
  if !s.hostOpen ∨ 9 ≤ d.fn ∨ !s.live then s
  else if !(s.offered d.fn) then notOffered s d.fn 0 doeReg
  else if s.closing d.fn then ioFail s d.fn stDenied doeReg false
  else match d.ty with
    | 0 => s.emit (.answer haDoe (doeDiscovery (req.getD 0 0)))
    | 1 => let (s, bs) := spdmPlain s d.fn req
           s.emit (.answer haSpdm bs)
    | 2 => let (s, bs) := spdmSecured s d.fn req
           s.emit (.answer haSecured bs)
    | _ => s

end Sys2Proof.Machine
end

