-- ==== Sys2Proof/Machine/Time.lean ====
section
/-! DEFINITION. Fabric time (13_training_support.md, R419 to R421), the ACLK slots of R513, and the clock tick, which is what
a step does while no command waits. -/

namespace Sys2Proof.Machine

/-- Every 10 µs an active link sends a TIME packet with its stamp (R420). -/
def timeExchange (s : State) (n : Nat) : State :=
  sendLocal s n { typ := tTIME, src := s.endpoint 19, last := true, itime := s.ns, body := leBytes 8 s.ns }

/-- Units of 1/7 ns in a number of picoseconds. -/
def psUnits (ps : Nat) : Nat := ps * 7 / 1000

/-- A measured offset below 2 ns counts toward the lock from the first exchange that shows it, and a larger one starts the count
anew (R421). -/
def noteOffset (s : State) (ps : Nat) : State :=
  let t := s.tsync
  { s with tsync := { t with since := if ps < 2000 then some (t.since.getD s.clock) else none } }

/-- Step the counter by an offset (R421). -/
def stepTime (s : State) (ps : Nat) (forward : Bool) : State :=
  { s with time := if forward then s.time + psUnits ps else s.time - psUnits ps
           tsync := { s.tsync with slew := 0 } }

/-- The offset of a device that is not a master from its parent: step, slew, or after its first lock HOLDOVER above 1 µs (R420,
R421). `forward` says that the parent is ahead. -/
def applyOffset (s : State) (ps : Nat) (forward : Bool) : State :=
  let st := s.rd trcBase TRC_TSTAT.STATE
  let slew := fun (s : State) => noteOffset { s with tsync := { s.tsync with slew := psUnits ps, forward := forward } } ps
  if st = 3 then
    if s.bit trcBase TRC_TCTRL.RELOCK then
      let s := (s.wr trcBase TRC_TCTRL.RELOCK 0).wr trcBase TRC_TSTAT.STATE 1
      if forward then noteOffset (stepTime s ps true) ps else slew s
    else s
  else if !s.tsync.locked then noteOffset (stepTime (s.wr trcBase TRC_TSTAT.STATE 1) ps forward) ps
  else if 1000000 < ps then holdover s
  else slew s

/-- TIME arrives on port n with the four stamps of the exchange in ps: own sending, peer's reception, peer's sending, own
reception (R420). The delay is half the round trip, the offset half the difference of the two directions. -/
def recvTime (s : State) (n t1 t2 t3 t4 : Nat) : State :=
  if s.lkState n ≠ lkACTIVE then s
  else
    let i := fun (x : Nat) => (x : Int)
    let delay := ((i t4 - i t1) - (i t3 - i t2)) / 2
    let off := ((i t2 - i t1) + (i t3 - i t4)) / 2
    let s := s.wr trcBase (TRC_LINKDLY.PS n) delay.toNat
    if s.bit trcBase TRC_TCTRL.PVALID ∧ s.rd trcBase TRC_TCTRL.PARENT = n ∧ !(s.bit trcBase TRC_TCTRL.MASTER) then
      -- the offset is that of this device from its parent
      let s := s.wr trcBase TRC_TSTAT.OFFSET (toBits 32 (-off))
      applyOffset s off.natAbs (decide (0 ≤ off))
    else s

/-- The offset has stayed below 2 ns for 1 ms (R421). -/
def timeLocked (s : State) : State :=
  match s.tsync.since with
  | some t =>
    if t + usUnits 1000 ≤ s.clock ∧ s.rd trcBase TRC_TSTAT.STATE < 2 then
      { s.wr trcBase TRC_TSTAT.STATE 2 with tsync := { s.tsync with locked := true } }
    else s
  | none => s

/-- A write of RELOCK (R421). -/
def relock (s : State) : State := s.wr trcBase TRC_TCTRL.RELOCK 1

/-- A write of TRC_TSET (R421): once, on the master, before its first lock. Its offset is 0 from then on. -/
def setTime (s : State) (v : Nat) : State :=
  if s.bit trcBase TRC_TCTRL.MASTER ∧ !s.tsync.locked ∧ !s.tsync.set_ then
    { s.wr trcBase TRC_TSTAT.STATE 1 with time := 7 * v, tsync := { s.tsync with set_ := true, since := some s.clock } }
  else s

/-! Clocks. -/

/-- The 4-bit reversal of j (R513). -/
def bitrev4 (j : Nat) : Nat := j % 2 * 8 + j / 2 % 2 * 4 + j / 4 % 2 * 2 + j / 8 % 2

/-- ACLK slots that end in the NCLK after `clock`: ACLK runs at 3/4 of NCLK (R28: 1.75 and 2.333 GHz, in units of 1/7 ns a
slot is 4 units and an NCLK 3). -/
def aclkSlots (clock : Nat) : List Nat :=
  (List.range ((clock + 3) / 4 - clock / 4)).map (fun i => clock / 4 + i)

/-- One ACLK slot of a die: suppressed under the throttle level, or counted (R513). -/
def aclkSlot (s : State) (d j : Nat) : State :=
  if bitrev4 (j % 16) < s.rd (pmuBase d) PMU_THROT.LEVEL then s.bump (pmuBase d) PMU_STRETCH.COUNT PMU_STRETCH.WRAP 1
  else
    let s := if d = 0 then { s with aclk0 := s.aclk0 + 1 } else { s with aclk1 := s.aclk1 + 1 }
    if d ≠ 0 then s
    else
      -- the phase cycles of R406
      forEach ((List.range 8).filter s.active) s (fun s k =>
        let phs := (s.partQueues k).filterMap (fun q =>
          if s.bit (qBase q) SEQ_QCTRL.EN then some (s.queue q).phase else none)
        forEach ((List.range 64).filter (fun p => phs.contains p)) s (fun s p =>
          s.wr (cenBase k) (CEN_PH_CYC.COUNT p) (s.rd (cenBase k) (CEN_PH_CYC.COUNT p) + 1)))

/-- The fabric-time units of the next NCLK: 3, and while an offset is being slewed one more or less every 1,667 NCLK, which
is 200 ppm (R419, R420). -/
def timeUnits (s : State) : Nat :=
  if s.tsync.slew ≠ 0 ∧ s.nclk % 1667 = 0 then (if s.tsync.forward then 4 else 2) else 3

/-- The Leash microseconds that a step of fabric time passes (R236). -/
def leashMicros (s : State) (from_ til : Nat) : State :=
  forEach (List.range (til / 7000 - from_ / 7000)) s (fun s _ =>
    forEach ((List.range 8).filter s.active) s (fun s k => forEach (s.partQueues k) s leashTick))

/-- May a partition be gated: queues idle or disabled, no Retriever work, no open context (R518). -/
def State.partIdle (s : State) (k : Nat) : Bool :=
  s.active k &&
    (s.partQueues k).all (fun q => s.qIdle q || !(s.bit (qBase q) SEQ_QCTRL.EN)) &&
    (s.partPacks k).all (fun p => (List.range 4).all (fun n => (s.ret p n).cur.isNone && (s.ret p n).waiting.isEmpty)) &&
    (s.part k).colls.all (fun c => !c.2.isOpen)

/-- Since when the conditions of partition idle hold together (R518), looked at once an NCLK (DEDUCED, log 89). -/
def watchIdle (s : State) : State :=
  forEach ((List.range 8).filter s.active) s (fun s k =>
    let p := s.part k
    if s.partIdle k then if p.idleAt.isNone then s.setP k { p with idleAt := some s.clock } else s
    else if p.idleAt.isSome then s.setP k { p with idleAt := none } else s)

/-- One NCLK of a device whose compute dies are clocked. -/
def tickLive (s : State) : State :=
  let s := watchIdle s
  let slots := aclkSlots s.clock
  let s := forEach slots s (fun s j => aclkSlot (aclkSlot s 0 j) 1 j)
  let s := stallTick s
  let u := timeUnits s
  let s := { s with tsync := { s.tsync with slew := if u = 3 then s.tsync.slew else s.tsync.slew - 1 } }
  leashMicros { s with time := s.time + u } s.time (s.time + u)

end Sys2Proof.Machine
end

