-- ==== Sys2Proof/Machine/Power.lean ====
section
/-! DEFINITION. Resets, power states and what survives them (R487 to R499, R519 to R522), the PMUs (R513 to R518),
Shepherd's sensors, trips, wakes, commands and device-level Leash (R523 to R530), and bridge failure (R538). -/

namespace Sys2Proof.Machine

/-! What each reset keeps (R493). -/

/-- Register addresses that a warm reset and Doze keep: Kennel and Shepherd, coordinates and port configuration, sync
ranges and Howl numbers, interleave domains and pin remaps, shares, the device part of SHAPE_ and SHAPE_PCFG. -/
def keptReg (a : Nat) : Bool :=
  let within := fun lo n => decide (lo ≤ a) && decide (a < lo + n)
  within shpBase 0x1000 || within knlBase 0x1000 ||
    (List.range 8).any (fun n => within (lnkBase n) 0x18) ||
    (List.range 16).any (fun p => within (syncBase p) 8 || within (syncBase p + 0x18) 8) ||
    (List.range 12).any (fun h => within (hbmcBase h + 8) 8 || within (hbmcBase h + 0x2000) 0x100) ||
    within (rteBase + 8) 8 || within shapeBase 0x1000 || (List.range 8).any (fun k => within (shapePBase k) 8)

/-- What a partition keeps through a warm reset and Doze (class 6). -/
def keptPart (p : Part) : Part := { life := p.life, jdom := p.jdom, count := p.count, section_ := p.section_, howls := p.howls }

/-- The defaults that depend on the device: port axes and directions, protocol levels, power limits (R313, R503, R531). -/
def deviceDefaults (s : State) : State :=
  let s := forEach (List.range 8) s (fun s n =>
    let b := lnkBase n
    let s := (s.wr b LNK_STAT.EDIR (s.rd b LNK_CFG.DIR)).wr b LNK_LEVEL.LINK (s.runImg 2).llvl
    s.wr b LNK_LEVEL.COLL (s.runImg 2).clvl)
  let w := if s.ident.grade = 1 then 950 else 875
  (s.wr (pmuBase 0) PMU_PLIMIT.WATTS w).wr (pmuBase 1) PMU_PLIMIT.WATTS w

/-- The compute logic loses classes 8 to 16 of R493: a warm reset or Doze. -/
def clearCompute (s : State) : State :=
  { s with
    regs := s.regs.filter (fun x => keptReg (x.1 / 64))
    mem := s.mem.filter (fun c => decide (c.1 < 0xC000000000) || (decide (knlBase ≤ c.1) && decide (c.1 < knlBase + 0x1000)))
    parts := s.parts.map (fun x => (x.1, keptPart x.2))
    pmus := [], fns := [], tsync := {}, tiles := [], queues := [], ctrs := [], rets := [], links := [], rte := {}
    xfers := [], haccs := [], hpieces := [], lastLd := 0, telAt := none, time := 0, aclk0 := 0, aclk1 := 0
    msixOpen := [], msixPend := [], msixTab := [], scrubNow := [], remapPtr := s.remapPtr.map (fun x => (x.1, 0)), refresh := []
    kn := { s.kn with linkIde := none } }

/-- Close the through-paths but those kept open, which stay as they are (R309, R310, R520). -/
def closePaths (s : State) (keep : Nat) : State :=
  (s.wr shpBase SHP_TPSTAT.CLOSED (Nat.lor (s.rd shpBase SHP_TPSTAT.CLOSED) (15 - Nat.land 15 keep))).wr shpBase
    SHP_TPSTAT.READY 0

/-- Kennel reports the ports ready once a base image is applied, and Shepherd opens the through-paths (R310, R497). -/
def portsReady (s : State) : State :=
  if s.live ∧ s.bit shapeBase SHAPE_STAT.LOADED ∧ s.bit (lnkBase 0) LNK_COORD.VALID then
    (s.wr shpBase SHP_TPSTAT.CLOSED 0).wr shpBase SHP_TPSTAT.READY 1
  else s

/-- The failed state with its code: every through-path is closed (R498). -/
def failBoot (s : State) (code : Nat) : State :=
  { (closePaths s 0).wr shpBase SHP_STATE.FAILCODE code with shp := { s.shp with failed := true, fault := true } }

/-- Does the boot flash hold an image of a type that R501 and R502 accept: code 0, or that of R498. -/
def State.imgCode (s : State) (ty : Nat) : Nat :=
  let f := s.flashImg ty
  let old := decide (f.svn < s.svnCount ty)
  if ty = 2 then (if !f.valid then 5 else if old then 6 else 0)
  else if !f.valid || old then 7 else 0

/-- The failed channels of a bridge at its training, each once: 27 data channels and spares 27 and 28 (R24). -/
def failedChans (t : Boot) (b : Nat) : List Nat := (List.range 29).filter (fun c => t.chans.contains (b, c))

/-- The failing pins of a pseudo-channel at the test of R272. -/
def badPins (t : Boot) (h pc : Nat) : List Nat := (List.range 37).filter (fun p => t.pins.contains (h, pc, p))

/-- What the tests of step 7 of R495 find: a bridge with more than 2 failed channels (R25), or a pseudo-channel with more than
one failing pin (R498). -/
def bridgesFail (t : Boot) : Bool := (List.range 4).any (fun b => decide (2 < (failedChans t b).length))
def pinsFail (t : Boot) : Bool := t.pins.any (fun x => decide (1 < (badPins t x.1 x.2.1).length))

/-- The code with which a boot ends (R495, R498): what the hardware's own tests found and the images, the first failing step
giving the code. -/
def State.bootCode (s : State) (t : Boot) (tys : List Nat) : Nat :=
  if 1 ≤ t.code ∧ t.code ≤ 4 then t.code
  else match (tys.map s.imgCode).find? (fun c => c != 0) with
    | some c => c
    | none =>
      if t.code = 8 ∨ bridgesFail t then 8
      else if t.code = 10 ∨ pinsFail t then 10
      else if t.code = 9 ∨ t.code = 11 then t.code else 0

/-- The spares of the bridges take the place of the channels that failed at training (R25), and the spare pins that of the
failing pins, without a pass (R272). -/
def train (s : State) (t : Boot) : State :=
  let s := { s with bridgeSp := (List.range 4).foldl (fun x b =>
    let l := failedChans t b
    if l.isEmpty then x else tset x b l) [] }
  forEach (t.pins.filter (fun x => decide (x.1 < 12) && decide (x.2.1 < 32) && decide (x.2.2 < 36))) s (fun s x =>
    (s.wr (hbmcBase x.1) (HBMC_REMAP.SPIN x.2.1) x.2.2).wr (hbmcBase x.1) (HBMC_REMAP.SPARED x.2.1) 1)

/-- The images of some types in the boot flash run from now on (R500). -/
def loadImages (s : State) (tys : List Nat) : State :=
  { s with kn := { s.kn with run := tys.foldl (fun r ty => tset r ty (s.flashImg ty)) s.kn.run } }

/-- Step 6 of R495: fuse counts rise to the images in the boot flash (R502). -/
def raiseFuses (s : State) : State :=
  { s with ident := { s.ident with
    svn := [2, 3, 4, 5].foldl (fun t ty => tset t ty (max (tgetD t ty 0) (s.flashImg ty).svn)) s.ident.svn } }

/-- The timers of the device-level Leash start at an entry into D0 (R529). -/
def startTimers (s : State) : State :=
  { s with shp := { s.shp with knlBeat := s.clock, hostBeat := s.clock, knlLive := true, hostLive := true } }

/-- The XTS keys are loaded again, the base-image registers that a reset has cleared are applied again, ports that are enabled go
to DETECT, and the LDs are offered (steps 8 to 10 of R490, R521). -/
def reapply (s : State) : State :=
  let s := deviceDefaults (unwrapKeys s)
  let s := forEach ((List.range 8).filter (fun k => (s.part k).life == 2)) s baseMapping
  let s := forEach (List.range 8) s toDetect
  refreshOffered (portsReady s)

/-! Warm reset (R490). -/

/-- Steps 1 to 4: the compute logic is held in reset. An immediate scrub pass that runs starts again (R490). -/
def warmBegin (s : State) : State :=
  let passes := s.scrubNow
  let s := closePaths (clearCompute (wrapKeys s)) 0
  let s := forEach passes s (fun s h => s.wr (hbmcBase h) HBMC_SCRUB_CTRL.NOW 1)
  { s with scrubNow := passes, shp := { s.shp with warm := true } }

/-- Steps 5 to 10. The code is 10 when a stack fails to retrain. -/
def warmEnd (s : State) (code : Boot) : State :=
  if !s.shp.warm then s
  else
    let s := { s with shp := { s.shp with warm := false } }
    let bad := (([4, 5].map s.imgCode).find? (fun c => c != 0)).getD (if code.code = 10 then 10 else 0)
    if bad ≠ 0 then failBoot s bad else reapply (loadImages s [4, 5])

/-- A warm reset begins, or is deferred by an activation window (R490, R509). The CXL link stays down while it waits. -/
def warmReset (s : State) : State :=
  if s.kn.fwState = 3 then { cxlLinkDown s with kn := { s.kn with deferWarm := true } } else warmBegin s

def perstAssert (s : State) : State :=
  let s := { s with shp := { s.shp with perst := true } }
  if s.live ∧ s.shp.p12v then warmReset s else s

/-- A hot reset: the logic leaves reset 2 ms after it began, unless PERST# holds it. -/
def hotReset (s : State) (code : Boot) : State :=
  if s.live ∧ s.linkOn then
    let s := warmReset s
    if s.kn.deferWarm then { s with kn := { s.kn with deferCode := code } }
    else if s.shp.perst then s else warmEnd s code
  else s

/-! Power-on reset (R495, R497, R498). -/

/-- What is left of the device when the compute dies and the stacks lose power: the fuses, the boot flash, and Shepherd's
class. `clock` and what stands at the boundary go on. -/
def powerLost (s : State) : State :=
  { ident := s.ident, kn := { flash := s.kn.flash, run := s.kn.run, drbg := s.kn.drbg, kwk := false }
    shp := { s.shp with dozing := 0, dozeWake := none }
    regs := (s.regs.filter (fun x => decide (shpBase ≤ x.1 / 64) && decide (x.1 / 64 < shpBase + 0x1000)))
    xferNext := s.xferNext, haccNext := s.haccNext, hpieceNext := s.hpieceNext
    clock := s.clock, fresh := s.fresh, out := s.out, pending := s.pending }

/-- The configuration registers of a boot without a base image: axis n div 2, direction n mod 2, the straps (R301, R313). -/
def bootPorts (s : State) : State :=
  let st := s.kn.straps
  forEach (List.range 8) s (fun s n =>
    let b := lnkBase n
    let s := (s.wr b LNK_CFG.AXIS (n / 2)).wr b LNK_CFG.DIR n
    s.wr b LNK_COORD.COORD (mkCoord 0 (st / 16 % 4) (st / 4 % 4) (st % 4)))

/-- A power-on reset: the steps of R495, with what the hardware's tests find. -/
def powerOn (s : State) (code : Boot) : State :=
  let s := powerLost s
  let s := closePaths (s.wr shpBase SHP_STATE.PSTATE 0) 0
  let s := { s with shp := { s.shp with off := false, warm := false, failed := false, retained := false } }
  let bad := s.bootCode code [2, 3, 4, 5]
  if bad ≠ 0 then failBoot s bad
  else
    let s := { s with kn := { s.kn with straps := code.straps.getD s.ident.straps } }
    let s := train (raiseFuses (loadImages s [2, 4, 5])) code
    let s := deviceDefaults (bootPorts s)
    let s := { s.wr shpBase SHP_STATE.FAILCODE 0 with shp := { s.shp with fault := false } }
    startTimers (makeBak s)

/-! Requests of the PMUs (R514). -/

def State.pmu (s : State) (d : Nat) : Pmu := tgetD s.pmus d {}
def State.setPmu (s : State) (d : Nat) (p : Pmu) : State := { s with pmus := tset s.pmus d p }

/-- The level that is requested of a PMU (R514). -/
def State.throtReq (s : State) (d : Nat) : Nat :=
  let b := pmuBase d
  max (s.rd b PMU_THROT.SHPREQ) (max (s.rd b PMU_THROT.PWRREQ) (s.rd b PMU_THROT.HOSTCAP))

/-- A request of a PMU changes: a fall of the level starts to wait for its first millisecond. -/
def changeReq (s : State) (d : Nat) (f : State → State) : State :=
  let lv := s.rd (pmuBase d) PMU_THROT.LEVEL
  let was := decide (s.throtReq d < lv)
  let s := f s
  if s.throtReq d < lv ∧ !was then s.setPmu d { s.pmu d with stepAt := s.clock } else s

/-! Shepherd reset (R487, R491, R499). -/

/-- Shepherd's class returns to its reset values and its image runs again; power state, failure code and through-paths are
what they are. In Doze the retention SRAM is lost. An activation in its window is interrupted (R509). -/
def shpReset (s : State) : State :=
  let f := fun (x : Field) => s.rd shpBase x
  let ps := f SHP_STATE.PSTATE
  let fail := f SHP_STATE.FAILCODE
  let closed := f SHP_TPSTAT.CLOSED
  let ready := f SHP_TPSTAT.READY
  let s := resetRegs s shpBase 0x1000
  let s := (s.wr shpBase SHP_STATE.PSTATE ps).wr shpBase SHP_STATE.FAILCODE fail
  let s := (s.wr shpBase SHP_TPSTAT.CLOSED closed).wr shpBase SHP_TPSTAT.READY ready
  let s := forEach [0, 1] s (fun s d => changeReq s d (fun s => s.wr (pmuBase d) PMU_THROT.SHPREQ 0))
  let s := startTimers { s with shp := { s.shp with win := [], retained := false } }
  let s := if ps = 1 then { s with kn := { s.kn with blobs := [] } } else s
  let s := if s.kn.fwState = 3 then
      mbResult { s with kn := { s.kn with fwState := 0, fwNew := none } } krFwFlash 0 [] else s
  if s.imgCode 3 ≠ 0 then let s := failBoot s 7
                          { s with shp := { s.shp with rom := true } }
  else loadImages { s with shp := { s.shp with rom := false } } [3]

/-! Power states (R519 to R522). -/

/-- The axis of each port as LNK_CFG has it. -/
def State.portAxes (s : State) : List Nat := (List.range 8).map (fun n => s.rd (lnkBase n) LNK_CFG.AXIS)

/-- A state without the stacks: partitions and HBM are lost (Standby). Shepherd keeps the ports' axes for the wakes of R521. -/
def enterStandby (s : State) (keep : Nat) : State :=
  let axes := if s.rd shpBase SHP_STATE.PSTATE = 2 then s.shp.axes else s.portAxes
  let s := closePaths ((powerLost s).wr shpBase SHP_STATE.PSTATE 2) keep
  { s with shp := { s.shp with warm := false, failed := s.shp.failed, axes := axes } }

/-- May DOZE and STANDBY be accepted (R520). -/
def State.dozeBusy (s : State) : Bool :=
  s.kn.fwState == 3 || s.shp.dozing != 0 ||
    (List.range 8).any (fun k => s.active k &&
      (s.bit (shapePBase k) SHAPE_OVSTAT.PENDING || (s.partQueues k).any (fun q => s.bit (qBase q) SEQ_QCTRL.EN)))

/-- DOZE (R520): the compute logic is gated, and the retention SRAM holds what R493 keeps. A partition that was still being
created is not in it, nor is the staging area (R504). -/
def enterDoze (s : State) : State :=
  let keep := s.rd shpBase SHP_TPCTRL.KEEPOPEN
  let dbg := s.rd knlBase KNL_STATE.DEBUG
  let axes := s.portAxes
  let s := forEach s.tearing s teardownEnd
  let s := { s with kn := { s.kn with xts := s.kn.xts.filter (fun x => (s.part x.1).life == 2) } }
  let s := closePaths (clearCompute (wrapKeys s)) keep
  let s := (resetRegs s knlBase 0x1000).wr knlBase KNL_STATE.DEBUG dbg
  let s := { s with
    mem := mzero s.mem knlBase 0x1000
    parts := s.parts.map (fun (x : Nat × Part) => (x.1, if x.2.life = 2 then x.2 else { count := x.2.count }))
    kn := { s.kn with
      running := none, result := none, creating := [], nonce := none, fwState := 0, fwType := 0, fwLen := 0
      fwBlocks := [], fwDigest := [], fwNew := none, kwk := false }
    shp := { s.shp with retained := true, axes := axes } }
  s.wr shpBase SHP_STATE.PSTATE 1

/-- A wake (R521): from Doze with its record, the retained classes are applied again; otherwise a power-on reset. -/
def wake (s : State) (src : Nat) (code : Boot) : State :=
  let s := s.wr shpBase SHP_WAKE.LASTSRC src
  if s.rd shpBase SHP_STATE.PSTATE = 1 ∧ s.shp.retained then
    let bridges : Boot := { code with pins := [] }
    let bad := s.bootCode bridges [2, 3, 4, 5]
    let s := { s.wr shpBase SHP_STATE.PSTATE 0 with shp := { s.shp with retained := false } }
    if bad ≠ 0 then failBoot s bad
    else
      let s := { s with kn := { s.kn with kwk := !s.debug } }
      startTimers (reapply (train (raiseFuses (loadImages s [2, 4, 5])) bridges))
  else powerOn s code

/-- May a wake source start a wake: in Doze, or in Standby with 12 V in tolerance (R519). -/
def State.mayWake (s : State) : Bool :=
  let ps := s.rd shpBase SHP_STATE.PSTATE
  !s.shp.off && !s.shp.rom && (ps == 1 || (ps == 2 && s.shp.p12v))

/-- A wake source fires: a wake begins, or waits for the entry into Doze or Standby that is under way (R520, R521). -/
def wakeBy (s : State) (src : Nat) (code : Boot) : State :=
  if s.mayWake then wake s src code
  else if s.shp.dozing ≠ 0 ∧ s.shp.dozeWake.isNone then { s with shp := { s.shp with dozeWake := some (src, code) } }
  else s

/-- WAKE# is asserted for 1 µs (R521). -/
def wakePin (s : State) (code : Boot) : State := if s.bit shpBase SHP_WAKE.PIN then wakeBy s 1 code else s

/-- PERST# is deasserted (R490, R521). -/
def perstDeassert (s : State) (code : Boot) : State :=
  if !s.shp.perst then s
  else
    let s := { s with shp := { s.shp with perst := false } }
    if s.shp.warm then warmEnd s code
    else if s.kn.deferWarm then { s with kn := { s.kn with deferCode := code } }
    else if s.bit shpBase SHP_WAKE.PERST then wakeBy s 2 code
    else s

/-- Emergency shutdown (R528). -/
def shutdown (s : State) (cause sensor : Nat) : State :=
  let s := enterStandby s 0
  let s := (s.wr shpBase SHP_STATE.LAST cause).wr shpBase SHP_STATE.SENSOR sensor
  { s with shp := { s.shp with fault := true } }

/-- Do requests that this device made, or that wait for the host, run (R520). -/
def State.inFlight (s : State) : Bool := !(s.xfers.isEmpty && s.haccs.isEmpty && s.hpieces.isEmpty)

/-- An accepted DOZE or STANDBY takes effect once the requests in flight are complete, and a wake that fired meanwhile is acted
on (R520). -/
def settleDoze (s : State) : State :=
  if s.shp.dozing = 0 ∨ !s.live ∨ s.inFlight then s
  else
    let w := s.shp.dozeWake
    let op := s.shp.dozing
    let s := { s with shp := { s.shp with dozing := 0, dozeWake := none } }
    let s := if op = 1 then enterDoze s else enterStandby s (s.rd shpBase SHP_TPCTRL.KEEPOPEN)
    match w with
    | some (src, code) => wakeBy s src code
    | none => s

/-- A command of R530 by its number, in D0. -/
def shpCommand (s : State) (op : Nat) (code : Boot) : State :=
  let res := fun (s : State) r => s.wr shpBase SHP_CMD.RESULT r
  let doze := fun (s : State) => if s.dozeBusy then res s 1
    else let s := res s 0
         settleDoze { s with shp := { s.shp with dozing := op } }
  if !s.live then res s 2
  else match op with
    | 1 => doze s
    | 2 => doze s
    | 3 => powerOn (res s 0) code
    | 4 => (shpReset s).wr shpBase SHP_CMD.RESULT 0
    | _ => res s 3

/-! Rails (R522, R546). -/

/-- P12V is lost: D0 and Doze fall to Standby. -/
def p12vLoss (s : State) : State :=
  let s := { s with shp := { s.shp with p12v := false } }
  if s.shp.off ∨ s.rd shpBase SHP_STATE.PSTATE = 2 then s
  else (enterStandby s (s.rd shpBase SHP_TPCTRL.KEEPOPEN)).wr shpBase SHP_STATE.LAST 6

/-- P12V enters tolerance. -/
def p12vIn (s : State) (code : Boot) : State :=
  let s := { s with shp := { s.shp with p12v := true } }
  if !s.shp.off ∧ !s.shp.rom ∧ s.rd shpBase SHP_STATE.PSTATE = 2 ∧ s.bit shpBase SHP_WAKE.AUTO then
    powerOn (s.wr shpBase SHP_WAKE.LASTSRC 12) code
  else s

/-- The standby rail is lost: Off, where nothing is kept but fuses and flash; the through-paths are open (R310, R493). -/
def standbyLoss (s : State) : State :=
  let s := powerLost s
  let s := resetRegs s shpBase 0x1000
  { s.wr shpBase SHP_STATE.PSTATE 2 with
    shp := { off := true, p12v := s.shp.p12v, perst := s.shp.perst } }

/-- The standby rail rises: a Shepherd reset into Standby, with AUTO set, and a power-on reset when 12 V is there. -/
def standbyRise (s : State) (code : Boot) : State :=
  if !s.shp.off then s
  else
    let s := shpReset { s with shp := { s.shp with off := false } }
    let s := closePaths s 0
    if s.shp.failed ∨ !s.shp.p12v then s else powerOn (s.wr shpBase SHP_WAKE.LASTSRC 12) code

/-- A root PLL loses lock (R516). -/
def pllLoss (s : State) (d : Nat) (code : Boot) : State :=
  if d < 2 ∧ !s.shp.off ∧ !s.shp.rom ∧ s.rd shpBase SHP_STATE.PSTATE = 0 then powerOn (s.wr shpBase SHP_STATE.LAST 5) code else s

/-! PMUs (R513 to R518). -/

/-- One step of the applied level (R514): up when 10 µs have passed since the last step, down when 1 ms has. -/
def throttleRamp (s : State) (d : Nat) : State :=
  if 2 ≤ d ∨ !s.live then s
  else
    let b := pmuBase d
    let lv := s.rd b PMU_THROT.LEVEL
    let rq := s.throtReq d
    let p := s.pmu d
    let go := fun v => (s.wr b PMU_THROT.LEVEL v).setPmu d { p with stepAt := s.clock }
    if lv < rq ∧ (p.stepAt = 0 ∨ p.stepAt + usUnits 10 ≤ s.clock) then go (lv + 1)
    else if rq < lv ∧ p.stepAt + usUnits 1000 ≤ s.clock then go (lv - 1)
    else s

/-- A write of HOSTCAP (R514). -/
def setHostcap (s : State) (d v : Nat) : State := changeReq s d (fun s => s.wr (pmuBase d) PMU_THROT.HOSTCAP v)

/-- A power sample of a die (R515); PMU_POWER shows the average of each millisecond. -/
def powerSample (s : State) (d watts : Nat) : State :=
  if 2 ≤ d ∨ !s.live then s
  else
    let b := pmuBase d
    let limit := s.rd b PMU_PLIMIT.WATTS
    let lv := s.rd b PMU_THROT.PWRREQ
    let low := decide (100 * watts < 95 * limit)
    let p := s.pmu d
    let p := { p with sum := p.sum + watts, count := p.count + 1 }
    let s := if p.count = 1000 then s.wr b PMU_POWER.WATTS (p.sum / 1000) else s
    let p := if p.count = 1000 then { p with sum := 0, count := 0 } else p
    let fall := low && decide (p.fallAt + usUnits 1000 ≤ s.clock)
    let s := s.setPmu d { p with fallAt := if !low || fall then s.clock else p.fallAt }
    if s.bit b PMU_PLIMIT.EN ∧ limit < watts then changeReq s d (fun s => s.wr b PMU_THROT.PWRREQ (min 15 (lv + 1)))
    else if fall then changeReq s d (fun s => s.wr b PMU_THROT.PWRREQ (lv - 1))
    else s

/-- Partition idle: the packs of each die whose PMU allows it are gated (R518). -/
def partitionIdle (s : State) (k : Nat) : State :=
  match if s.live && s.partIdle k then (s.part k).idleAt else none with
  | none => s
  | some since =>
    forEach (s.partPacks k) s (fun s p =>
      let d := packDie p
      let b := pmuBase d
      let g := s.rd b PMU_GATESTAT.PACKS
      let delay := max 1 (s.rd b PMU_PIDLE.DELAY)
      if bitAt (s.rd b PMU_PIDLE.EN) k && !(bitAt g (p % 8)) && decide (since + usUnits delay ≤ s.clock) then
        let s := s.wr b PMU_GATESTAT.PACKS (g + 2 ^ (p % 8))
        forEach (s.packTiles p) s (fun s t => s.setT t { s.tile t with gated := some (s.aclk d) })
      else s)

/-! Sensors (R523 to R528). -/

/-- Is the supply of a sensor gated (R523). -/
def State.sensorGated (s : State) (i : Nat) : Bool :=
  let ps := s.rd shpBase SHP_STATE.PSTATE
  let die := decide (i < 40) || i == 52 || i == 53 || (decide (56 ≤ i) && decide (i < 80))
  (ps != 0 && die && !(ps == 1 && (i == 67 || i == 79))) || (ps == 2 && decide (40 ≤ i) && decide (i < 52))

/-- The dies that a sensor's throttle action addresses (R526). -/
def sensorDies (i : Nat) : List Nat :=
  if i < 20 then [0]
  else if i < 40 then [1]
  else if i ≤ 55 ∨ (89 ≤ i ∧ i ≤ 91) then [0, 1]
  else if i < 68 then [0]
  else if i < 80 then [1]
  else if i = 92 ∨ i = 94 then [0]
  else if i = 93 ∨ i = 95 ∨ (84 ≤ i ∧ i ≤ 87) then [1]
  else [0]

/-- Shepherd's request to a die: the highest TLVL of its alarmed throttle sensors (R526). -/
def State.shepherdReq (s : State) (d : Nat) : Nat :=
  (List.range 96).foldl (fun m i =>
    if s.bit shpBase (SHP_SVAL.ALARM i) && bitAt (s.rd shpBase (SHP_SCFG.ACT i)) 1 && (sensorDies i).contains d then
      max m (s.rd shpBase (SHP_SCFG.TLVL i)) else m) 0

/-- The requests reach the PMUs, and a change may raise SHP_THROTTLE (R526). -/
def sendRequests (s : State) : State :=
  forEach [0, 1] s (fun s d =>
    let r := s.shepherdReq d
    if r = s.rd (pmuBase d) PMU_THROT.SHPREQ then s
    else
      let s := changeReq s d (fun s => s.wr (pmuBase d) PMU_THROT.SHPREQ r)
      if s.bit shpBase SHP_CTRL.THR_EVT then raiseEv s .shpThrottle none { subj := d, detail := r } else s)

/-- The comparator of R525 on the average, as signed values: no alarm is raised unless HI is above LO. -/
def compareSensor (dir alarm : Bool) (f hi lo : Int) : Bool :=
  if !dir then
    (if !alarm then decide (lo < hi) && decide (hi ≤ f) else !(decide (f ≤ lo)))
  else
    (if !alarm then decide (lo < hi) && decide (f ≤ lo) else !(decide (hi ≤ f)))

/-- The wake source that an alarmed sensor is (R521): the host lanes, or a port whose axis is kept open and whose through-path is
not closed. -/
def State.sensorWake (s : State) (i : Nat) : Option Nat :=
  if !(s.bit shpBase SHP_WAKE.SENS) || !(bitAt (s.rd shpBase (SHP_SCFG.ACT i)) 3) then none
  else if i = 88 then some 3
  else if 80 ≤ i ∧ i < 88 then
    (let ax := s.shp.axes.getD (i - 80) 0
     if bitAt (s.rd shpBase SHP_TPCTRL.KEEPOPEN) ax && !(bitAt (s.rd shpBase SHP_TPSTAT.CLOSED) ax) then some (4 + (i - 80))
     else none)
  else none

/-- A sample of sensor i, a 16-bit two's-complement value (R524 to R528). `code` is what a boot that a wake starts finds. -/
def sensorSample (s : State) (i v : Nat) (code : Boot) : State :=
  let off := decide (s.rd shpBase (SHP_SCFG.RATE i) = 3)
  if 96 ≤ i ∨ s.shp.off ∨ s.shp.rom then s
  else if s.sensorGated i then (s.wr shpBase (SHP_SVAL.SAMPLE i) 0).wr shpBase (SHP_SVAL.AVG i) 0
  else
    let v := v % 65536
    let x := sext 16 v
    let s := if off then s else s.wr shpBase (SHP_SVAL.SAMPLE i) v
    if i < 40 ∧ 1840 ≤ x then shutdown s 1 i
    else if 40 ≤ i ∧ i < 52 ∧ 1680 ≤ x then shutdown s 2 i
    else if off then s
    else
      let lg := s.rd shpBase (SHP_SCFG.NLOG2 i)
      let old := tgetD s.shp.win i []
      let w := if old.isEmpty then List.replicate (2 ^ lg) v else (v :: old).take (2 ^ lg)
      let s := { s with shp := { s.shp with win := tset s.shp.win i w } }
      let f := (w.foldl (fun (a : Int) y => a + sext 16 y) 0) / ((2 ^ lg : Nat) : Int)
      let s := s.wr shpBase (SHP_SVAL.AVG i) (toBits 16 f)
      let was := s.bit shpBase (SHP_SVAL.ALARM i)
      let now := compareSensor (s.bit shpBase (SHP_SCFG.DIR i)) was f (sext 16 (s.rd shpBase (SHP_SCFG.HI i)))
        (sext 16 (s.rd shpBase (SHP_SCFG.LO i)))
      let s := s.wr shpBase (SHP_SVAL.ALARM i) (b2n now)
      let act := s.rd shpBase (SHP_SCFG.ACT i)
      let s := if now && !was && bitAt act 0 && s.live then
          raiseEv s .shpAlarm none { subj := i, detail := s.rd shpBase (SHP_SVAL.AVG i) } else s
      if now && bitAt act 2 && s.rd shpBase SHP_STATE.PSTATE != 2 then shutdown s 4 i
      else if s.live then sendRequests s
      else match s.sensorWake i with
        | some src => if now then wakeBy s src code else s
        | none => s

/-- A write of a sensor's configuration: its window fills again with the first new sample (R524). -/
def setScfg (s : State) (i v : Nat) : State :=
  let b := shpBase
  let s := ((s.wr b (SHP_SCFG.RATE i) v).wr b (SHP_SCFG.NLOG2 i) (v / 4)).wr b (SHP_SCFG.DIR i) (v / 32)
  let s := (s.wr b (SHP_SCFG.ACT i) (v / 64)).wr b (SHP_SCFG.TLVL i) (v / 1024)
  let s := (s.wr b (SHP_SCFG.HI i) (v / 2 ^ 32)).wr b (SHP_SCFG.LO i) (v / 2 ^ 48)
  { s with shp := { s.shp with win := tdel s.shp.win i } }

/-- The analog trip of the always-on island (R527, R528). -/
def analogTrip (s : State) : State :=
  if s.rd shpBase SHP_STATE.PSTATE = 0 ∧ !s.shp.off then shutdown s 3 0 else s

/-! The device-level Leash (R529). -/

/-- Has a timer reached LIMIT in D0, a warm reset included (R519): values below 10 ms act as 10. -/
def State.beatLate (s : State) (beat : Nat) : Bool :=
  s.rd shpBase SHP_STATE.PSTATE == 0 && !s.shp.failed && !s.shp.off && !s.shp.rom && s.kn.fwState != 3 && decide (beat + usUnits (1000 * max 10 (s.rd shpBase SHP_LEASH.LIMIT)) ≤ s.clock)

/-- The partitions that are active. -/
def State.activeParts (s : State) : List Nat := (List.range 8).filter s.active

/-- A record to the device buffer and to the ring of every partition. -/
def raiseAll (s : State) (e : Ev) (d : EvData) : State :=
  let (code, sev, _) := evInfo e
  let s := devPut s (evRecord e 0xFF s.ns d)
  forEach s.activeParts s (fun s k => partPut s k code sev (evRecord e k s.ns d))

/-- A Howl of every partition that the Leash or a bridge starts. -/
def howlAll (s : State) (cause writer : Nat) : State := forEach s.activeParts s (fun s k => startHowl s k cause writer 0)

/-- HALT in every queue. -/
def haltAll (s : State) : State :=
  forEach (List.range 16) s (fun s p => forEach (s.packQueues p) s setHalt)

def leashFired (s : State) (cause : Nat) : State := (s.wr shpBase SHP_LEASH.FIRED 1).wr shpBase SHP_LEASH.CAUSE cause

/-- The Kennel timer reaches LIMIT. -/
def deviceLeashKnl (s : State) (code : Boot) : State :=
  if s.shp.knlLive && s.bit shpBase SHP_LEASH.KNL_EN && s.beatLate s.shp.knlBeat then
    let s := leashFired { s with shp := { s.shp with knlLive := false } } 1
    let s := raiseEv s .shpLeash none { subj := 1 }
    let s := howlAll s 3 1
    if s.bit shpBase SHP_LEASH.KRESET then
      powerOn ((forEach s.activeParts s howlDone).wr shpBase SHP_STATE.LAST 7) code
    else s
  else s

/-- The host timer reaches LIMIT. -/
def deviceLeashHost (s : State) : State :=
  if s.shp.hostLive && s.bit shpBase SHP_LEASH.HOST_EN && s.beatLate s.shp.hostBeat then
    let s := leashFired { s with shp := { s.shp with hostLive := false } } 2
    let s := raiseAll s .shpLeash { subj := 2 }
    haltAll (howlAll s 3 1)
  else s

def hostBeat (s : State) : State := { s with shp := { s.shp with hostBeat := s.clock, hostLive := true } }
def kennelBeat (s : State) : State := { s with shp := { s.shp with knlBeat := s.clock, knlLive := true } }

/-! Bridge failure (R25, R538). -/

/-- Is a channel of a bridge in use: a data channel that no spare replaces, or a spare that replaces one (R25). Spare 27 takes the
place of the first channel that failed at training and spare 28 that of the second, and an idle spare that fails takes no bridge
out (DESIGN CHOICE, log 142). -/
def State.chanUsed (s : State) (b ch : Nat) : Bool :=
  let l := tgetD s.bridgeSp b []
  if ch < 27 then !l.contains ch
  else decide (ch < 29) && !l.contains ch && decide (ch - 27 < (l.filter (fun c => decide (c < 27))).length +
    (if ch = 28 && l.contains 27 then 1 else 0))

/-- A channel that is in use fails: its whole bridge leaves service (R25). -/
def bridgeFail (s : State) (b ch : Nat) : State :=
  if 4 ≤ b ∨ !s.live ∨ bitAt s.bridges b ∨ !(s.chanUsed b ch) then s
  else
    let s := { s with bridges := s.bridges + 2 ^ b, bridgeCh := tset s.bridgeCh b ch }
    let s := raiseAll s .bridgeFail { subj := b, detail := ch }
    howlAll (haltAll s) 4 0

/-! The end of a mailbox command and of an activation window (R456, R509). -/

/-- The resets that an activation window deferred. -/
def runDeferred (s : State) : State :=
  if s.kn.fwState = 3 then s
  else
    let ps := s.kn.deferParts
    let w := s.kn.deferWarm
    let code := s.kn.deferCode
    let s := { s with kn := { s.kn with deferWarm := false, deferCode := {}, deferParts := [] } }
    if w then
      let s := warmBegin s
      if s.shp.perst then s else warmEnd s code
    else forEach (ps.filter s.active) s partReset

/-- KNL_DONE. -/
def knlDone (s : State) : State := runDeferred (mbFinish s)

/-! The clock. -/

/-- The clock tick that a step makes while no command waits: one NCLK (R419, R518, R520). -/
def tick (s : State) : State :=
  let s' := settleDoze (if s.live then tickLive s else s)
  { s' with clock := s.clock + 3 }

end Sys2Proof.Machine
end

