-- ==== Sys2Proof/Machine/Regs.lean ====
section
/-! DEFINITION. Register space: which register stands at an address, what a read of it shows, who may reach it, and what a
write does (R15, R31, R33, R68, R377, R383, R402, R430, R431, R435, R456, R486, R541, R553). -/

namespace Sys2Proof.Machine

/-- The register blocks of R31, by their index. -/
inductive Blk where
  | tile (t : Nat)
  | tileSeq (t : Nat)
  | queue (q : QId)
  | ap (t n : Nat)
  | ag (t n : Nat)
  | acc (t : Nat)
  | packSeq (p : Nat)
  | ret (p n : Nat)
  | sync (p : Nat)
  | coll (p : Nat)
  | packCen (p : Nat)
  | hbmc (h : Nat)
  | lnk (n : Nat)
  | rte
  | shape
  | shapeP (k : Nat)
  | cxlp
  | cxlpL (n : Nat)
  | pmu (d : Nat)
  | shp
  | knl
  | trc
  | trcP (k : Nat)
  | cen (k : Nat)
deriving DecidableEq, Repr

/-! The registers of each block, by the offset of their aligned 8-byte unit. In a unit the fields stand in the order in
which a write takes effect: values before actions. -/

def tileFields : List Field :=
  [TILE_ID.FLAT, TILE_ID.INDEX, TILE_ID.PACK, TILE_ID.DIE, TILE_ID.LOWBIT, TILE_CTRL.CONFLICT_EVT, TILE_CTRL.ALIGN_EVT,
   TILE_CTRL.COLLIDE_EVT, TILE_CTRL.UNDER_EVT, TILE_STAT.BANK_CONFLICT, TILE_STAT.ALIGN, TILE_STAT.AG_UNDER,
   TILE_STAT.NO_LOWBIT, TILE_STAT.REPLAY_ACTIVE, TILE_CYCLES.COUNT, TILE_CYCLES.WRAP, TILE_CONFLICTS.COUNT,
   TILE_CONFLICTS.WRAP]

def tileSeqFields : List Field :=
  [SEQ_TCTRL.PREEMPT, SEQ_TCTRL.RESTORE, SEQ_TSAVE.ADDR, SEQ_TSTAT.SAVING, SEQ_TSTAT.SAVED, SEQ_TSTAT.RESTORING,
   SEQ_TSTAT.RESTORED, SEQ_TSTAT.REC_ERR]

def queueFields : List Field :=
  [SEQ_QCTRL.LOC, SEQ_QCTRL.RING_LOG2, SEQ_QCTRL.EN, SEQ_QCTRL.HALT, SEQ_QCTRL.RESUME, SEQ_QCTRL.SKIP, SEQ_QBASE.BASE,
   SEQ_QTAIL.TAIL, SEQ_QHEAD.HEAD, SEQ_QRETIRED.COUNT, SEQ_QSTAT.IDLE, SEQ_QSTAT.WAITING, SEQ_QSTAT.HALTED,
   SEQ_QSTAT.BREAK, SEQ_QSTAT.FAULT, SEQ_QSTAT.PREEMPTED, SEQ_QSTAT.FAULT_CODE, SEQ_QSTAT.TAG, SEQ_QSTAT.REPEAT_IDX,
   SEQ_QBRKCNT.VALUE, SEQ_QBRKTAG.TAG, SEQ_QBRKTAG.MASK, SEQ_QBRKTAG.TAG_EN, SEQ_QBRKTAG.CNT_EN, SEQ_QLEASH.LIMIT,
   SEQ_QLEASH.EN, SEQ_QLEASH.STOP, SEQ_QLSTAT.ELAPSED, SEQ_QLSTAT.FIRED, SEQ_QLSTAT.RUNNING]

def apFields : List Field :=
  (List.range 32).map SEQ_APWORD.WORD ++ (List.range 8).map SEQ_APREG.VALUE ++
    [SEQ_APSTAT.PC, SEQ_APSTAT.RUN, SEQ_APSTAT.ERR]

def agRegs : List Field :=
  [AG_CTRL.MODE, AG_BASE.BASE, AG_SCALE.BASE, AG_ROW.STRIDE] ++ (List.range 4).map AG_LOOP.STRIDE ++
    (List.range 4).map AG_LOOP.COUNT ++ (List.range 4).map AG_POS.I ++
    [AG_CUR.ADDR, AG_FIFO.BASE, AG_FIFO_STAT.LEVEL, AG_FIFO_STAT.OVF]

/-- ACC_FLAGS, ACC_STAT and the exponents of the banks. -/
def accRegs : List Field :=
  (List.range 4).foldr (fun n r =>
    [ACC_FLAGS.NAN n, ACC_FLAGS.OVF n, ACC_FLAGS.SAT n, ACC_FLAGS.RPL n, ACC_FLAGS.COLLIDE n, ACC_BEXP.D n] ++ r)
    [ACC_STAT.SHADOW_BANK, ACC_STAT.SHADOW_VALID, ACC_STAT.LAST_REPLAYS]

def retFields : List Field :=
  [SEQ_RETSTAT.STATE, SEQ_RETSTAT.STATUS, SEQ_RETSTAT.WAITING, SEQ_RETSTAT.XFER, SEQ_RETDONE.BYTES, SEQ_RETTIME.TIME,
   SEQ_RETTOTAL.BYTES] ++ (List.range 4).map SEQ_RETCMD.WORD

def syncFields : List Field :=
  [SYNC_RANGE.FIRST, SYNC_RANGE.LAST, SYNC_RANGE.VALID, SYNC_CTRL.OVF_EVT, SYNC_CTRL.HOWL, SYNC_STAT.OVF,
   SYNC_STAT.HOWL_BUSY, SYNC_STAT.HOWL_DONE, SYNC_STAT.OVF_IDX, SYNC_HOWLCNT.COUNT]

def hbmcFields (u : Nat) : List Field :=
  if 0x2000 ≤ u then
    let c := (u - 0x2000) / 8
    if c < 32 then
      [HBMC_REMAP.PIN c, HBMC_REMAP.REQ c, HBMC_REMAP.REFUSED c, HBMC_REMAP.SPIN c, HBMC_REMAP.SPARED c,
       HBMC_REMAP.BUSY c, HBMC_REMAP.MPIN0 c, HBMC_REMAP.MPIN1 c, HBMC_REMAP.MARKED c]
    else []
  else if 0x1000 ≤ u then
    let c := (u - 0x1000) / 0x80
    let w := (u - 0x1000) % 0x80 / 4
    if c < 32 then ((List.range 4).map (fun i => 2 * w + i)).filterMap (fun p =>
      if p < 37 then some (HBMC_PINCNT.CNT c p) else none) else []
  else
    [HBMC_ID.STACK, HBMC_ID.DIE, HBMC_ID.PCS, HBMC_ID.GIB, HBMC_DOMAIN.PART, HBMC_DOMAIN.VALID, HBMC_DOMAIN.DSIZE,
     HBMC_DOMAIN.DIDX, HBMC_DOMAIN.DMASK, HBMC_CTRL.CE_EVT, HBMC_CTRL.AUTO_REMAP, HBMC_CTRL.REMAP_THR,
     HBMC_STAT.FILL_BUSY, HBMC_STAT.SCRUB_BUSY, HBMC_STAT.REMAP_BUSY, HBMC_STAT.TEMP, HBMC_SCRUB_CTRL.EN,
     HBMC_SCRUB_CTRL.PASS_MIN, HBMC_SCRUB_CTRL.NOW, HBMC_SCRUB_STAT.POS, HBMC_SCRUB_STAT.PASSES, HBMC_CE_COUNT.COUNT,
     HBMC_CE_COUNT.SAT, HBMC_UE_COUNT.COUNT, HBMC_UE_COUNT.SAT, HBMC_ELOG.SADDR, HBMC_ELOG.SYM, HBMC_ELOG.UE,
     HBMC_ELOG.SCRUB, HBMC_ELOG.VALID]

def lnkFields : List Field :=
  [LNK_ID.PORT, LNK_ID.DIE, LNK_COORD.COORD, LNK_COORD.WSIZE, LNK_COORD.WCHAIN, LNK_COORD.VALID, LNK_CFG.AXIS,
   LNK_CFG.DIR, LNK_CFG.AUTO, LNK_CFG.MAXW, LNK_CFG.EN, LNK_CTRL.AUTO_RESTORE, LNK_CTRL.IMG_EVT, LNK_CTRL.PAD_NCLK,
   LNK_CTRL.RETRAIN, LNK_CTRL.DISABLE, LNK_STAT.STATE, LNK_STAT.REASON, LNK_STAT.TXW, LNK_STAT.RXW, LNK_STAT.RXMASK,
   LNK_STAT.TXMASK, LNK_STAT.HOPS, LNK_STAT.SWAPPED, LNK_STAT.EDIR, LNK_STAT.DEGRADED, LNK_PEER.COORD, LNK_PEER.PORT,
   LNK_PEER.LOGICAL, LNK_PEER.UID_LO, LNK_PEERIMG.ID, LNK_LEVEL.LINK, LNK_LEVEL.COLL, LNK_LEVEL.ALINK, LNK_LEVEL.ACOLL,
   LNK_REKEY.THR_LOG2, LNK_REKEY.REQ, LNK_REKEY.BUSY, LNK_REKEY.STALL, LNK_REKEY.COUNT, LNK_RETRY.FILL,
   LNK_RETRY.AGE_NS, LNK_FECCORR.COUNT, LNK_FECCORR.WRAP, LNK_FECUNC.COUNT, LNK_FECUNC.WRAP, LNK_CRCERR.COUNT,
   LNK_CRCERR.WRAP, LNK_NAKS.COUNT, LNK_NAKS.WRAP, LNK_DOWNS.COUNT, LNK_DOWNS.WRAP] ++
  (List.range 9).map LNK_FCNT.COUNT ++ (List.range 9).map LNK_FCNT.KPH ++
  (List.range 12).map LNK_LANEERR.COUNT ++ (List.range 12).map LNK_LANEERR.WRAP

/-- The live and the snapshot telemetry bank, and the registers below them. -/
def rteFields (u : Nat) : List Field :=
  if 0x10000 ≤ u then
    let bank := u / 0x10000
    let v := u % 0x10000 / 0x80
    if v < 189 ∧ bank ≤ 2 then
      (telFields v).foldr (fun f r =>
        (if bank = 1 then [f.1, f.2] else [snapField f.1, { snapField f.2 with acc := .ro }]) ++ r) []
    else []
  else
    [RTE_CTRL.ESC_WAIT, RTE_CTRL.SSTEP_EN, RTE_CTRL.NOTICE_WAIT, RTE_CTRL.XFER_TO, RTE_LSMAP.PORTS, RTE_LSMAP.XRING,
     RTE_LSMAP.YRING, RTE_LSMAP.ZRING, RTE_FAIL.PORT, RTE_FAIL.VALID, RTE_FAIL.NOTICED, RTE_FAIL.REINJ, RTE_FAIL.DISC,
     RTE_FAILTIME.TIME, RTE_LOSTCNT.COUNT, RTE_LOSTCNT.WRAP, RTE_SSTEPCNT.COUNT, RTE_SSTEPCNT.WRAP, RTE_UTCNT.COUNT,
     RTE_UTCNT.WRAP, RTE_ESCCNT.COUNT, RTE_ESCCNT.WRAP, RTE_BADPKT.COUNT, RTE_BADPKT.WRAP, RTE_TSNAP.TIME,
     RTE_TELCTRL.PERIOD, RTE_TELCTRL.SNAP_DONE] ++ (List.range 8).map RTE_SHARE.SHARE ++
    (if 0x40 ≤ u ∧ u < 0x80 then (List.range 7).map (RTE_VCW.W ((u - 0x40) / 8)) else [])

def collFields : List Field :=
  [COLL_CTRL.RETRY_US, COLL_CTRL.ERR_EVT, COLL_CTRL.ABORT, COLL_STAT.OPEN, COLL_STAT.NOPEN, COLL_STAT.HELD,
   COLL_ERR.STATUS, COLL_ERR.CTX, COLL_ERR.VALID, COLL_ERR.GID, COLL_ERR.SEQ, COLL_ERRCOORD.COORD_A,
   COLL_ERRCOORD.COORD_B, COLL_ERRDIG.DIG_A, COLL_ERRDIG.DIG_B, COLL_STARTED.COUNT, COLL_STARTED.WRAP,
   COLL_STALE.COUNT, COLL_STALE.WRAP, COLL_RETRIES.COUNT, COLL_RETRIES.WRAP, COLL_DROP.COUNT, COLL_DROP.WRAP]

def collCtxFields : List Field :=
  [COLL_CTX_ID.GID, COLL_CTX_ID.SEQ, COLL_CTX_ID.OPEN, COLL_CTX_ID.DONE, COLL_CTX_ID.STATUS, COLL_CTX_ID.STAGE,
   COLL_CTX_ID.PACK, COLL_CTX_PROG.DIGEST, COLL_CTX_PROG.STEP, COLL_CTX_PROG.CHUNK, COLL_CTX_RX.BYTES,
   COLL_CTX_TX.BYTES, COLL_CTX_TOPEN.TIME, COLL_CTX_TPROG.TIME, COLL_CTX_DADDR.ADDR]

/-- The registers of one of the 16 contexts, at their place in the engine's block. -/
def ctxFieldsAt (c : Nat) : List Field := collCtxFields.map (fun f => { f with off := f.off + 0x100 + 0x40 * c })

def collRegs (u : Nat) : List Field :=
  if 0x100 ≤ u ∧ u < 0x500 then ctxFieldsAt ((u - 0x100) / 0x40) else collFields

def shapeFields : List Field :=
  [SHAPE_ID.ID, SHAPE_STAT.LOADED, SHAPE_STAT.CLOSED, SHAPE_STAT.GRADE, SHAPE_STAT.PARTS] ++
    (List.range 8).map SHAPE_AMODE.FIFO ++ (List.range 8).map SHAPE_AMODE.LIST

def shapePFields (u : Nat) : List Field :=
  if 0x200 ≤ u then if u < 0x400 then [SHAPE_OVLOG.W ((u - 0x200) / 0x20) (u % 0x20 / 8)] else []
  else if 0x100 ≤ u then if u < 0x180 then (List.range 16).map (SHAPE_ROUTE.FORM ((u - 0x100) / 8)) else []
  else if 0x80 ≤ u then
    let k := (u - 0x80) / 8
    if k < 9 then (List.range 16).map (fun j => SHAPE_TSTAGE.ST (16 * k + j)) else []
  else
    [SHAPE_PCFG.PACKS, SHAPE_PCFG.STACKS, SHAPE_PCFG.VALID, SHAPE_SEED.SEED, SHAPE_OVCTRL.ID, SHAPE_OVCTRL.LOAD,
     SHAPE_OVCTRL.DROP, SHAPE_OVSTAT.HELD, SHAPE_OVSTAT.ACTIVE, SHAPE_OVSTAT.ACTIVE_VALID, SHAPE_OVSTAT.PENDING,
     SHAPE_OVSTAT.PEND_ID, SHAPE_OVSTAT.MISMATCH, SHAPE_OVSTAT.LOAD_DONE, SHAPE_OVSTAT.BUSY, SHAPE_OVSTAT.LOAD_ERR,
     SHAPE_OVARR.ARRIVED, SHAPE_OVARR.PARTICIPANTS, SHAPE_OVCOUNT.COUNT] ++ (List.range 16).map SHAPE_STAGEAX.AX

def ringFields : List Field :=
  [CEN_RBASE.BASE, CEN_RCFG.LOG2, CEN_RCFG.WM, CEN_RWR.COUNT, CEN_RRD.COUNT, CEN_RDROP.COUNT, CEN_RDROP.WRAP]

def cenFields (u : Nat) : List Field :=
  if 0x800 ≤ u then
    let k := (u - 0x800) / 0x20
    if k < 64 then [CEN_PH_FP.A k, CEN_PH_CYC.COUNT k, CEN_PH_START.TIME k, CEN_PH_STOP.TIME k] else []
  else
    [CEN_PCTRL.CMODE, CEN_PCTRL.FPDETAIL, CEN_PCTRL.NFEN, CEN_PCTRL.NFPH, CEN_PCTRL.NFCTR, CEN_PCTRL.CLOSE,
     CEN_PCTRL.NFCLR, CEN_PSTAT.NAN, CEN_PSTAT.INF, CEN_PSTAT.CLOSING, CEN_PSTAT.CLOSES, CEN_NFSRC.ADDR,
     CEN_NFDST.ADDR] ++ ringFields

def trcPFields : List Field :=
  ringFields ++
    [TRC_EBASE.BASE, TRC_ECFG.LOG2, TRC_ECFG.EN, TRC_EWR.COUNT, TRC_ERD.COUNT, TRC_EDROP.COUNT, TRC_EDROP.WRAP,
     TRC_EVEC.VEC_I, TRC_EVEC.VEC_W, TRC_EVEC.VEC_E, TRC_EVEC.VEC_F, TRC_EVEC.SEN, TRC_EMASK.MASK]

def trcFields : List Field :=
  [TRC_TIME.NS, TRC_TCTRL.MASTER, TRC_TCTRL.PARENT, TRC_TCTRL.PVALID, TRC_TCTRL.RELOCK, TRC_TSET.NS, TRC_TSTAT.STATE,
   TRC_TSTAT.OFFSET, TRC_DEVWR.COUNT, TRC_DEVRD.COUNT, TRC_DEVDROP.COUNT, TRC_DEVDROP.WRAP] ++
    (List.range 8).map TRC_LINKDLY.PS

def knlFields : List Field :=
  [KNL_MBCTRL.GO, KNL_MBCMD.OPCODE, KNL_MBCMD.LEN, KNL_MBSTAT.BUSY, KNL_MBSTAT.DONE, KNL_MBSTAT.COLLIDE,
   KNL_MBSTAT.RESULT, KNL_MBSTAT.DETAIL, KNL_MBSTAT.OUTLEN, KNL_STATE.DEBUG, KNL_STATE.OPSLOT, KNL_STATE.OPREV,
   KNL_STATE.PARTS, KNL_UID.UID]

def cxlpFields : List Field :=
  [CXLP_LSTAT.RATE, CXLP_LSTAT.WIDTH, CXLP_LSTAT.MODE, CXLP_LSTAT.CACHE, CXLP_LSTAT.CMIDE, CXLP_LSTAT.REASON,
   CXLP_CFG.CTO_US, CXLP_CFG.CACHE_EN, CXLP_ERRLOG.STATUS, CXLP_ERRLOG.LD, CXLP_ERRLOG.CHAN, CXLP_ERRLOG.INBOUND,
   CXLP_ERRLOG.VALID, CXLP_ERRADDR.ADDR, CXLP_IOERR.COUNT, CXLP_IOERR.WRAP, CXLP_MEMERR.COUNT, CXLP_MEMERR.WRAP,
   CXLP_HOSTERR.COUNT, CXLP_HOSTERR.WRAP, CXLP_TELCMD.EP, CXLP_TELCMD.PORT, CXLP_TELCMD.VC, CXLP_TELCMD.BANK,
   CXLP_TELCMD.DONE, CXLP_TELCMD.ERR, CXLP_TELCMD.GO] ++ (List.range 10).map CXLP_TELDATA.VALUE

def cxlpLFields : List Field :=
  [CXLP_LDSTAT.OFFERED, CXLP_LDSTAT.BME, CXLP_LDSTAT.IDE_IO, CXLP_LDSTAT.HDM, CXLP_LDCTRL.IDE_REQ, CXLP_LDRD.BYTES,
   CXLP_LDWR.BYTES, CXLP_LDMSI.COUNT]

def pmuFields : List Field :=
  [PMU_ID.DIE, PMU_THROT.LEVEL, PMU_THROT.SHPREQ, PMU_THROT.PWRREQ, PMU_THROT.HOSTCAP, PMU_PLIMIT.WATTS, PMU_PLIMIT.EN,
   PMU_POWER.WATTS, PMU_PIDLE.EN, PMU_PIDLE.DELAY, PMU_GATESTAT.PACKS, PMU_STRETCH.COUNT, PMU_STRETCH.WRAP]

def shpFields (u : Nat) : List Field :=
  if 0x400 ≤ u then
    let i := (u - 0x400) / 0x10
    if 96 ≤ i then []
    else
      [SHP_SCFG.RATE i, SHP_SCFG.NLOG2 i, SHP_SCFG.DIR i, SHP_SCFG.ACT i, SHP_SCFG.TLVL i, SHP_SCFG.HI i, SHP_SCFG.LO i,
       SHP_SVAL.SAMPLE i, SHP_SVAL.AVG i, SHP_SVAL.ALARM i]
  else
    [SHP_STATE.PSTATE, SHP_STATE.FAILCODE, SHP_STATE.LAST, SHP_STATE.SENSOR, SHP_CMD.OP, SHP_CMD.GO, SHP_CMD.RESULT,
     SHP_CTRL.THR_EVT, SHP_WAKE.PIN, SHP_WAKE.PERST, SHP_WAKE.SENS, SHP_WAKE.AUTO, SHP_WAKE.LASTSRC,
     SHP_TPCTRL.KEEPOPEN, SHP_TPSTAT.CLOSED, SHP_TPSTAT.READY, SHP_LEASH.LIMIT, SHP_LEASH.KNL_EN, SHP_LEASH.HOST_EN,
     SHP_LEASH.KRESET, SHP_LEASH.FIRED, SHP_LEASH.CAUSE, SHP_HBEAT.VALUE]

/-- The block of an address of a tile's register window (R68, R167 to R169). -/
def tileBlk (t o : Nat) : Option Blk :=
  if o < 0x100 then some (.tile t)
  else if o < 0x1000 then none
  else if o < 0x1100 then some (.queue (.cq t))
  else if o < 0x1200 then some (.queue (.mq t))
  else if o < 0x1800 then none
  else if o < 0x1C00 then some (.tileSeq t)
  else if o < 0x1F00 then some (.ap t ((o - 0x1C00) / 0x100))
  else if o < 0x2000 then none
  else if o < 0x2300 then some (.ag t ((o - 0x2000) / 0x100))
  else if o < 0x3000 then none
  else if o < 0x3100 then some (.acc t)
  else none

/-- The block of an address of a pack's register window (R167, R170, R171, R249, R377, R430). -/
def packBlk (p o : Nat) : Option Blk :=
  if o < 0x100 then some (.queue (.gq p))
  else if o < 0x200 then some (.queue (.pmq p))
  else if o < 0x800 then none
  else if o < 0xC00 then some (.packSeq p)
  else if o < 0xD00 then some (.ret p ((o - 0xC00) / 0x40))
  else if o < 0x2000 then none
  else if o < 0x2100 then some (.sync p)
  else if o < 0x3000 then none
  else if o < 0x3800 then some (.coll p)
  else if o < 0x4000 then none
  else if o < 0x4008 then some (.packCen p)
  else none

/-- The register block that holds a local address, when it is in register space. -/
def blkAt (a : Nat) : Option Blk :=
  let o := a % 0x10000
  match rowOf a with
  | 4 => tileBlk ((a - 0xC100000000) / 0x10000) o
  | 5 => packBlk ((a - 0xC101000000) / 0x40000) ((a - 0xC101000000) % 0x40000)
  | 6 => some (.hbmc ((a - 0xC102000000) / 0x10000))
  | 7 => some (.lnk ((a - 0xC102100000) / 0x10000))
  | 8 => some .rte
  | 9 => if o < 0x1000 then some .shape else if o < 0x3000 then some (.shapeP ((o - 0x1000) / 0x400)) else none
  | 10 => if o < 0x1000 then some .cxlp else if o < 0x5000 then some (.cxlpL ((o - 0x1000) / 0x800)) else none
  | 11 => some (.pmu ((a - 0xC102500000) / 0x10000))
  | 12 => some .shp
  | 13 => some .knl
  | 14 =>
    let x := a - trcBase
    if x < 0x1000 then some .trc else if x < 0x9000 then some (.trcP (x / 0x1000 - 1)) else none
  | 15 => if o < 0x8000 then some (.cen (o / 0x1000)) else none
  | _ => none

/-- The first address of a block. The collective engine of a partition is that of its home pack (R377); in a pack of no
partition its registers stand nowhere. -/
def State.blkBase (s : State) : Blk → Nat
  | .tile t => tileBase t
  | .tileSeq t => tileBase t
  | .queue q => qBase q
  | .ap t n => apBase t n
  | .ag t n => agBase t n
  | .acc t => accBase t
  | .packSeq p => packBase p
  | .ret p n => retBase p n
  | .sync p => syncBase p
  | .coll p => match s.packPart p with
    | some k => s.engine k
    | none => collBase p
  | .packCen p => packCenBase p
  | .hbmc h => hbmcBase h
  | .lnk n => lnkBase n
  | .rte => rteBase
  | .shape => shapeBase
  | .shapeP k => shapePBase k
  | .cxlp => cxlpBase
  | .cxlpL n => cxlpLBase n
  | .pmu d => pmuBase d
  | .shp => shpBase
  | .knl => knlBase
  | .trc => trcBase
  | .trcP k => trcPBase k
  | .cen k => cenBase k

/-- The offset of an address in its block. -/
def blkOff (b : Blk) (a : Nat) : Nat :=
  match b with
  | .tile _ | .tileSeq _ | .hbmc _ | .lnk _ | .pmu _ => a % 0x10000
  | .queue _ | .ap _ _ | .ag _ _ | .acc _ | .sync _ => a % 0x100
  | .ret _ _ => a % 0x40
  | .coll _ | .packSeq _ | .packCen _ => a % 0x1000
  | .rte => a % 0x100000
  | .shapeP _ => a % 0x400
  | .cxlpL _ => a % 0x800
  | .shape | .cxlp | .shp | .knl | .trc | .trcP _ | .cen _ => a % 0x1000

/-- All fields that may stand in the unit at offset u of a block. -/
def blkFields (b : Blk) (u : Nat) : List Field :=
  match b with
  | .tile _ => tileFields
  | .tileSeq _ => tileSeqFields
  | .queue _ => queueFields
  | .ap _ _ => apFields
  | .ag _ _ => agRegs
  | .acc _ => accRegs
  | .packSeq _ => [SEQ_PCTRL.PREEMPT, SEQ_PCTRL.RESUME]
  | .ret _ _ => retFields
  | .sync _ => syncFields
  | .coll _ => collRegs u
  | .packCen _ => [CEN_PKSTAT.NAN, CEN_PKSTAT.INF]
  | .hbmc _ => hbmcFields u
  | .lnk _ => lnkFields
  | .rte => rteFields u
  | .shape => shapeFields
  | .shapeP _ => shapePFields u
  | .cxlp => cxlpFields
  | .cxlpL _ => cxlpLFields
  | .pmu _ => pmuFields
  | .shp => shpFields u
  | .knl => knlFields
  | .trc => trcFields
  | .trcP _ => trcPFields
  | .cen _ => cenFields u

/-- The fields of the aligned unit that holds an address, in the order of a write. -/
def unitFields (b : Blk) (a : Nat) : List Field :=
  let u := blkOff b a / 8 * 8
  (blkFields b u).filter (fun f => f.off / 8 * 8 == u)

/-! What a read shows where the value is not held as a field. -/

/-- TILE_CYCLES.COUNT: the cycles for which the tile has been clocked (R70, R518). -/
def State.tileCycles (s : State) (t : Nat) : Nat :=
  let ti := s.tile t
  ti.cyc + ti.gated.getD (s.aclk (packDie (packOf t))) - ti.cycBase

def State.viewTile (s : State) (t : Nat) : List (Field × Nat) :=
  [(TILE_ID.FLAT, t), (TILE_ID.INDEX, t % 9), (TILE_ID.PACK, packOf t), (TILE_ID.DIE, packDie (packOf t)),
   (TILE_ID.LOWBIT, b2n (t % 9 == 8)), (TILE_CYCLES.COUNT, s.tileCycles t)]

def State.viewQueue (s : State) (q : QId) : List (Field × Nat) :=
  [(SEQ_QSTAT.IDLE, b2n (s.qIdle q)), (SEQ_QSTAT.WAITING, b2n (s.qWaiting q)), (SEQ_QSTAT.HALTED, b2n (s.qHalted q)),
   (SEQ_QSTAT.REPEAT_IDX, s.qRepeat q), (SEQ_QLSTAT.RUNNING, b2n (s.leashRuns q))]

def State.viewRet (s : State) (p n : Nat) : List (Field × Nat) :=
  let r := s.ret p n
  [(SEQ_RETSTAT.STATE, s.retState p n), (SEQ_RETSTAT.STATUS, r.status), (SEQ_RETSTAT.WAITING, r.waiting.length),
   (SEQ_RETSTAT.XFER, r.xfer), (SEQ_RETDONE.BYTES, r.bytes), (SEQ_RETTIME.TIME, r.time), (SEQ_RETTOTAL.BYTES, r.total)] ++
    (List.range 4).map (fun k => (SEQ_RETCMD.WORD k, r.cmd / 2 ^ (64 * k)))

def State.viewSync (s : State) (p : Nat) : List (Field × Nat) :=
  match s.packPart p with
  | some k =>
    [(SYNC_CTRL.HOWL, b2n ((s.part k).howlReq.contains p)), (SYNC_STAT.HOWL_BUSY, b2n (s.part k).howl.isSome)]
  | none => []

/-- The registers of an open or completed context (R377). -/
def State.viewCtx (s : State) (k c : Nat) : List (Field × Nat) :=
  let x := s.coll k c
  let vals := [x.gid, x.seq, b2n x.isOpen, b2n x.done, x.status, x.stage, x.pack, x.digest, collStepField x, x.chunk,
    x.rx, x.tx, x.topen, x.tprog, x.daddr]
  (ctxFieldsAt c).zip vals

/-- The open contexts of a partition as a mask. -/
def State.openMask (s : State) (k : Nat) : Nat :=
  (List.range 16).foldl (fun m c => m + (if (s.coll k c).isOpen then 2 ^ c else 0)) 0

def State.viewColl (s : State) (p u : Nat) : List (Field × Nat) :=
  match s.packPart p with
  | some k =>
    if 0x100 ≤ u ∧ u < 0x500 then s.viewCtx k ((u - 0x100) / 0x40)
    else [(COLL_STAT.OPEN, s.openMask k), (COLL_STAT.NOPEN, bitCount (s.openMask k)),
          (COLL_STAT.HELD, (s.part k).held.length)]
  | none => (collRegs u).map (fun f => (f, 0))

def State.viewHbmc (s : State) (h : Nat) : List (Field × Nat) :=
  let b := hbmcBase h
  let fill := match s.kn.creating with
    | sec :: _ => bitAt (secStacks sec) h
    | [] => false
  [(HBMC_ID.STACK, h), (HBMC_ID.DIE, h / 6), (HBMC_STAT.FILL_BUSY, b2n fill), (HBMC_STAT.REMAP_BUSY, b2n (s.remapBusy h)),
   (HBMC_STAT.SCRUB_BUSY, b2n (s.bit b HBMC_DOMAIN.VALID && (s.bit b HBMC_SCRUB_CTRL.EN || s.scrubNow.contains h)))]

def State.viewLnk (s : State) (n : Nat) : List (Field × Nat) :=
  let l := s.link n
  [(LNK_ID.PORT, n), (LNK_ID.DIE, n / 4), (LNK_RETRY.FILL, l.retry.length),
   (LNK_RETRY.AGE_NS, match l.retry with
     | (t, _) :: _ => (s.clock - t) / 7
     | [] => 0)]

def State.viewShapeP (s : State) (k : Nat) : List (Field × Nat) :=
  let pend := s.bit (shapePBase k) SHAPE_OVSTAT.PENDING
  [(SHAPE_OVARR.ARRIVED, if pend then ((s.participants k).filter (fun q => (s.queue q).arrived)).length else 0),
   (SHAPE_OVARR.PARTICIPANTS, (s.participants k).length)]

/-- The fields of a block whose value is not held under the field's own key. -/
def State.views (s : State) (b : Blk) (u : Nat) : List (Field × Nat) :=
  match b with
  | .tile t => s.viewTile t
  | .tileSeq t => [(SEQ_TSTAT.SAVING, b2n (s.saveReady t))]
  | .queue q => s.viewQueue q
  | .ag t n => [(AG_FIFO_STAT.LEVEL, (s.agUnit t n).fifo.length + (s.agUnit t n).kept.length)]
  | .ret p n => s.viewRet p n
  | .sync p => s.viewSync p
  | .coll p => s.viewColl p u
  | .hbmc h => s.viewHbmc h
  | .lnk n => s.viewLnk n
  | .shape => [(SHAPE_STAT.GRADE, if s.bit shapeBase SHAPE_STAT.LOADED then imgGrade s.kn.base else 0)]
  | .shapeP k => s.viewShapeP k
  | .pmu d => [(PMU_ID.DIE, d)]
  | .knl => [(KNL_STATE.OPSLOT, s.opSlots), (KNL_STATE.OPREV, s.ident.opRev),
             (KNL_STATE.PARTS, s.rd shapeBase SHAPE_STAT.PARTS), (KNL_UID.UID, s.ident.uid)]
  | .trc => [(TRC_TIME.NS, s.ns)]
  | _ => []

/-- The value that a field shows: write-only fields and the bits of an action read 0 (R15). -/
def State.fieldVal (s : State) (b : Blk) (u : Nat) (f : Field) : Nat :=
  if f.acc = .wo then 0
  else match (s.views b u).find? (fun x => x.1 == f) with
    | some x => x.2 % 2 ^ f.wid
    | none => s.rd (s.blkBase b) f

/-- The place of a field's low bit in its aligned 8-byte unit. -/
def fieldPos (f : Field) : Nat := f.off % 8 * 8 + f.lo

/-- The 64 bits that the aligned unit at an address shows; bits that no field holds read 0. -/
def State.unitVal (s : State) (b : Blk) (a : Nat) : Nat :=
  (unitFields b a).foldl (fun x f => x + s.fieldVal b (blkOff b a / 8 * 8) f * 2 ^ fieldPos f) 0

/-! Writes. -/

/-- A write to an enable, coordinate or configuration field of a port before configuration closes: the port leaves or
enters DISABLED as R300 gives, and EDIR follows DIR. -/
def portRefresh (s : State) (n : Nat) : State :=
  if s.portOn n then if s.lkState n = lkDISABLED then toDetect s n else s
  else if s.lkState n = lkDISABLED then s
  else enterLink (leaveLink s n rsHost) n lkDISABLED

/-- A field that is read and written takes a value. `s.blkBase b` is where it is held. -/
def writeRw (s : State) (b : Blk) (f : Field) (v : Nat) : State :=
  let plain := s.wr (s.blkBase b) f v
  match b with
  | .queue q =>
    if f = SEQ_QCTRL.EN then writeEn s q v
    else if f = SEQ_QCTRL.HALT then writeHalt s q v
    else if f = SEQ_QTAIL.TAIL then writeTail s q v
    else if f = SEQ_QHEAD.HEAD then
      if s.bit (qBase q) SEQ_QCTRL.EN then s
      else
        let s := dropFetch plain q
        s.setQ q { s.queue q with pre := [], fetchErr := none }
    else if f.off = SEQ_QBRKTAG.TAG.off ∨ f = SEQ_QBRKCNT.VALUE then clipBlock plain q
    else plain
  | .coll p => if (s.packPart p).isSome then plain else s
  | .lnk n => if f = LNK_CTRL.DISABLE then (if v = s.rd (lnkBase n) f then s else disable s n v) else plain
  | .shapeP k =>
    if f = SHAPE_SEED.SEED ∧ (s.partQueues k).any (fun q => s.bit (qBase q) SEQ_QCTRL.EN) then s else plain
  | .cen k => if f = CEN_RRD.COUNT ∧ s.rd (cenBase k) CEN_RWR.COUNT < v then s else plain
  | .trcP k =>
    if (f = CEN_RRD.COUNT ∧ s.rd (trcPBase k) CEN_RWR.COUNT < v) ∨
       (f = TRC_ERD.COUNT ∧ s.rd (trcPBase k) TRC_EWR.COUNT < v) then s else plain
  | .trc => if f = TRC_DEVRD.COUNT ∧ s.rd trcBase TRC_DEVWR.COUNT < v then s else plain
  | .knl => if s.bit knlBase KNL_MBSTAT.BUSY then s else plain
  | .pmu d => if f = PMU_THROT.HOSTCAP then setHostcap s d v else plain
  | .shp => if 0x400 ≤ f.off then { plain with shp := { plain.shp with win := tdel plain.shp.win ((f.off - 0x400) / 0x10) } }
            else plain
  | _ => plain

/-- An RWL field takes a value before configuration closes (R15, R383). -/
def writeRwl (s : State) (b : Blk) (f : Field) (v : Nat) : State :=
  if s.bit shapeBase SHAPE_STAT.CLOSED then s
  else match b with
    | .lnk n =>
      -- VALID becomes set only by a base image (R497)
      if f = LNK_COORD.VALID then s
      else if f.off = LNK_COORD.COORD.off then
        let s := forEach (List.range 8) s (fun s i => s.wr (lnkBase i) f v)
        forEach (List.range 8) s portRefresh
      else
        let s := s.wr (lnkBase n) f v
        portRefresh (if f = LNK_CFG.DIR then s.wr (lnkBase n) LNK_STAT.EDIR v else s) n
    | _ => s.wr (s.blkBase b) f v

/-- Bits of a W1C field are cleared. -/
def clearBits (s : State) (b : Blk) (f : Field) (v : Nat) : State :=
  let x := s.blkBase b
  let hit := Nat.land (s.rd x f) v
  let s := s.wr x f (s.rd x f - hit)
  match b with
  | .queue q =>
    -- FIRED: a Leash that fired and waits restarts (R237)
    if f = SEQ_QLSTAT.FIRED && hit != 0 && !(s.queue q).armed then
      (s.setQ q { s.queue q with armed := true, whole := false }).wr x SEQ_QLSTAT.ELAPSED 0
    else s
  | _ => s

/-- Ones are written to a field whose bits start an action. `code` is the boot outcome of an action that boots the
device (R498). -/
def setBits (s : State) (b : Blk) (f : Field) (v : Nat) (code : Boot) : State :=
  match b with
  | .tileSeq t => if f = SEQ_TCTRL.PREEMPT then preemptTile s t else tileRestore s t
  | .packSeq p => if f = SEQ_PCTRL.PREEMPT then packPreempt s p else packResume s p
  | .sync p => match s.packPart p with
    | some k => howlRequest s k p
    | none => s
  | .coll p => match s.packPart p with
    | some k => collAbort s k v
    | none => s
  | .hbmc h =>
    if f = HBMC_SCRUB_CTRL.NOW then scrubNow s h
    else
      let c := (f.off - 0x2000) / 8
      remapReq s h c (s.rd (hbmcBase h) (HBMC_REMAP.PIN c))
  | .lnk n => if f = LNK_CTRL.RETRAIN then retrain s n else startRekey s n
  | .shapeP k => if f = SHAPE_OVCTRL.LOAD then overlayLoad s k else overlayDrop s k
  | .cen k => if f = CEN_PCTRL.CLOSE then phasesClosed (closePhases s k none []) k
              else (s.wr (cenBase k) CEN_PSTAT.NAN 0).wr (cenBase k) CEN_PSTAT.INF 0
  | .trc => relock s
  | .knl => mailboxGo s
  | .cxlp => telcmdGo s
  | .cxlpL n => s.wr (cxlpLBase n) CXLP_LDCTRL.IDE_REQ 1
  | .shp => shpCommand s (s.rd shpBase SHP_CMD.OP) code
  | _ => s

/-- A write-only field is written: `w` is the whole unit as written. -/
def writeOnly (s : State) (b : Blk) (f : Field) (v w : Nat) : State :=
  match b with
  | .queue q => if f = SEQ_QCTRL.RESUME ∧ v = 1 then resume s q (bitAt w SEQ_QCTRL.SKIP.lo) else s
  | .ag t n => agPush s t n v
  | .trc => setTime s v
  | .shp => hostBeat s
  | _ => s

/-- One field of a written unit: `w` holds the written bits and `cov` the bits that the access covers. A 4-byte write of the upper
half of CXLP_TELCMD with GO set acts: the bullet on W1S bits of R553 lets it, the one on action registers does not (DESIGN
CHOICE, log 126). -/
def writeField (s : State) (b : Blk) (u : Nat) (f : Field) (w cov : Nat) (code : Boot) : State :=
  let m := bitsAt cov (fieldPos f + f.wid - 1) (fieldPos f)
  let v := bitsAt w (fieldPos f + f.wid - 1) (fieldPos f)
  if m = 0 then s
  else
    let old := s.fieldVal b u f
    let merged := old - Nat.land old m + v
    match f.acc with
    | .ro => s
    | .rc => s
    | .rw => writeRw s b f merged
    | .rwl => writeRwl s b f merged
    | .w1c => if v = 0 then s else clearBits s b f v
    | .w1s => if v = 0 then s else setBits s b f v code
    | .wo => if bitAt cov (f.off % 8 * 8) then writeOnly s b f v w else s

/-- The bits of the aligned unit that an access of `size` bytes at `a` covers. -/
def coverage (a size : Nat) : Nat := (2 ^ (8 * size) - 1) * 2 ^ (a % 8 * 8)

/-- A write that passed its checks. -/
def unitWrite (s : State) (b : Blk) (a size v : Nat) (code : Boot) : State :=
  let w := v % 2 ^ (8 * size) * 2 ^ (a % 8 * 8)
  let u := blkOff b a / 8 * 8
  (unitFields b a).foldl (fun s f => writeField s b u f w (coverage a size) code) s

/-- A read that passed its checks: the bytes, and the RC fields that it covers cleared. -/
def unitRead (s : State) (b : Blk) (a size : Nat) : State × Nat :=
  let v := s.unitVal b a / 2 ^ (a % 8 * 8) % 2 ^ (8 * size)
  let x := s.blkBase b
  ((unitFields b a).foldl (fun s f =>
    let m := bitsAt (coverage a size) (fieldPos f + f.wid - 1) (fieldPos f)
    if f.acc = .rc then s.wr x f (s.rd x f - Nat.land (s.rd x f) m) else s) s, v)

/-! Checks. -/

/-- Does a source carry a management Collar (R432, R433). -/
def isMgmt : Src → Bool
  | .mgmt => true
  | .kennel => true
  | .collar x => bitAt x 31
  | _ => false

/-- Does a source carry a Collar that R441 lets pass: that of an active partition of this device, or the management Collar. A
unit of a pack without a partition carries none (R433; DEDUCED, log 139). -/
def State.standing (s : State) (c : Src) : Bool :=
  let ofPack := fun p => match s.packPart p with
    | some k => s.active k
    | none => false
  match c with
  | .unit p => ofPack p
  | .tile t => ofPack (packOf t)
  | .staged p _ => ofPack p
  | .ld n => s.active n
  | .mgmt => true
  | .kennel => true
  | .collar x => decide (2 ^ 31 ≤ x) || s.active (x / 2 ^ 28 % 8)
  | .far _ _ => true

/-- May a source reach a register block (R435, R486, R541). -/
def State.mayReg (s : State) (c : Src) (b : Blk) (off : Nat) (isWrite : Bool) : Bool :=
  let ofPack := fun p => match s.packPart p with
    | some k => s.mayReach c k
    | none => false
  match b with
  | .tile t => ofPack (packOf t)
  | .tileSeq t => ofPack (packOf t)
  | .queue q => ofPack (qPack q)
  | .ap t _ => ofPack (packOf t)
  | .ag t _ => ofPack (packOf t)
  | .acc t => ofPack (packOf t)
  | .packSeq p => ofPack p
  | .ret p _ => ofPack p
  | .sync p => ofPack p
  | .coll p => (s.packPart p).isNone || ofPack p
  | .packCen p => ofPack p
  | .shapeP k => s.mayReach c k
  | .cen k => s.mayReach c k
  | .trcP k => s.mayReach c k
  | .knl => isMgmt c
  | .cxlpL n => s.mayReach c n || (isMgmt c && !isWrite)
  | .trc => if 0x100 ≤ off then isMgmt c else (!isWrite && s.standing c) || isMgmt c
  | _ => (!isWrite && s.standing c) || isMgmt c

/-- Die and mesh row of the stop that serves a register block (R19, R22). R19 places packs, stacks, ports, the host port,
Kennel, the PMUs and the always-on island; which stop serves the RTE_, SHAPE_, TRC_ and device CEN_ registers it does not say,
and the model takes Kennel's (DESIGN CHOICE, log 116). -/
def blkStop : Blk → Nat × Nat
  | .tile t => packStop (packOf t)
  | .tileSeq t => packStop (packOf t)
  | .queue q => packStop (qPack q)
  | .ap t _ => packStop (packOf t)
  | .ag t _ => packStop (packOf t)
  | .acc t => packStop (packOf t)
  | .packSeq p => packStop p
  | .ret p _ => packStop p
  | .sync p => packStop p
  | .coll p => packStop p
  | .packCen p => packStop p
  | .hbmc h => (h / 6, if h % 6 < 3 then 0 else 3)
  | .lnk n => (n / 4, n % 4)
  | .pmu d => (d, 3)
  | .cxlp => (0, 0)
  | .cxlpL _ => (0, 0)
  | _ => (0, 3)
where
  packStop (p : Nat) : Nat × Nat := (p / 8, if p % 8 < 4 then 1 else 2)

/-- The present-tile check of a block. -/
def State.blkPresent (s : State) : Blk → Bool
  | .tile t => s.tilePresent t
  | .tileSeq t => s.tilePresent t
  | .queue (.cq t) => s.tilePresent t
  | .queue (.mq t) => s.tilePresent t
  | .ap t _ => s.tilePresent t
  | .ag t _ => s.tilePresent t
  | .acc t => s.tilePresent t
  | _ => true

/-- The buffers in register space (R402, R456, R541): Kennel's data buffer, a staging window, the device event buffer. -/
inductive RegBuf where
  | knl
  | staging (k : Nat)
  | events
deriving DecidableEq, Repr

def regBuf (a : Nat) : Option RegBuf :=
  if knlBuf ≤ a ∧ a < knlBase + 0x1000 then some .knl
  else if shapeBase + 0x8000 ≤ a ∧ a < shapeBase + 0x10000 then some (.staging ((a - shapeBase - 0x8000) / 0x1000))
  else if devEventBase ≤ a ∧ a < devEventBase + 0x4000 then some .events
  else none

/-- The status of a register access (R33, R435, R534, R538). -/
def State.regStatus (s : State) (c : Src) (a size : Nat) (isWrite : Bool) : Nat :=
  if (size ≠ 4 ∧ size ≠ 8) ∨ a % size ≠ 0 then stBadAddr
  else
    let fails := fun stop => s.crossFails 0 (srcStop c) stop
    match regBuf a with
    | some .knl => if !(isMgmt c) then stDenied else if fails (0, 3) then stDevFail else 0
    | some (.staging k) => if !(s.mayReach c k) then stDenied else if fails (0, 3) then stDevFail else 0
    | some .events => if !(isMgmt c) then stDenied else if fails (0, 3) then stDevFail else 0
    | none =>
      match blkAt a with
      | none => stBadAddr
      | some b =>
        if (unitFields b a).isEmpty then stBadAddr
        else if !(s.mayReg c b (blkOff b a) isWrite) then stDenied
        else if !(s.blkPresent b) then stAbsent
        else if fails (blkStop b) then stDevFail
        else 0

/-- What wakes a partition from partition idle (R518): any access to a tile's registers, a write to a queue's. -/
def wakeReg (s : State) (b : Blk) (isWrite : Bool) : State :=
  match b with
  | .tile t => wakePack s (packOf t)
  | .tileSeq t => wakePack s (packOf t)
  | .queue (.cq t) => wakePack s (packOf t)
  | .queue (.mq t) => wakePack s (packOf t)
  | .queue (.gq p) => if isWrite then wakePack s p else s
  | .queue (.pmq p) => if isWrite then wakePack s p else s
  | .packSeq p => if isWrite then wakePack s p else s
  | .ap t _ => wakePack s (packOf t)
  | .ag t _ => wakePack s (packOf t)
  | .acc t => wakePack s (packOf t)
  | _ => s

/-- A write to register space: status. -/
def regWrite (s : State) (c : Src) (a size v : Nat) (code : Boot) : State × Nat :=
  let st := s.regStatus c a size true
  if st ≠ 0 then (s, st)
  else match regBuf a with
    | some r =>
      if r = .knl ∧ s.bit knlBase KNL_MBSTAT.BUSY then (s, 0) else ({ s with mem := mwrite s.mem a (leBytes size v) }, 0)
    | none => match blkAt a with
      | some b => (unitWrite (wakeReg s b true) b a size v code, 0)
      | none => (s, stBadAddr)

/-- A read of register space: status and bytes. -/
def regRead (s : State) (c : Src) (a size : Nat) : State × Nat × List Nat :=
  let st := s.regStatus c a size false
  if st ≠ 0 then (s, st, [])
  else match regBuf a with
    | some (.staging _) => (s, 0, leBytes size 0)
    | some _ => (s, 0, mread s.mem a size)
    | none => match blkAt a with
      | some b => let (s, v) := unitRead (wakeReg s b false) b a size
                  (s, 0, leBytes size v)
      | none => (s, stBadAddr, [])

end Sys2Proof.Machine
end

