-- ==== Sys2Proof/Machine/HostRows.lean ====
section
/-! DEFINITION. Accesses of the host through the BARs (R466 to R470), and loads and stores through local and board addresses
(R33, R35). -/

namespace Sys2Proof.Machine

/-- Who asks: a request that names Kennel carries the management Collar, as its requests do (R433), and one of a tile that of
its pack. -/
def askSrc : Src → Src
  | .kennel => .mgmt
  | .tile t => .unit (packOf t)
  | c => c

/-- Who reaches other devices through board addresses (R35, R226): the units and tiles of a pack, and the host of a partition
through its LD. -/
def State.farOf (s : State) : Src → Option Far
  | .unit p => (s.packPart p).map (fun k => { unit := p, part := k })
  | .tile t => (s.packPart (packOf t)).map (fun k => { unit := packOf t, who := t + 1, part := k })
  | .ld n => if s.active n then some { unit := 16, part := n } else none
  | _ => none

/-- A local access on behalf of a source: register space in units (R553), the memories byte by byte. -/
def localRead (s : State) (c : Src) (a n : Nat) : State × Nat × List Nat :=
  if 3 < rowOf a ∧ rowOf a ≠ 99 ∧ rowOf a = rowOf (a + n - 1) then regRead s c a n else memRead s c a n

def localWrite (s : State) (c : Src) (a : Nat) (bytes : List Nat) : State × Nat :=
  let n := bytes.length
  if 3 < rowOf a ∧ rowOf a ≠ 99 ∧ rowOf a = rowOf (a + n - 1) then regWrite s c a n (leNat bytes) {}
  else memWrite s c a bytes

/-- The slot of a board address for the sources that use them; the others use local addresses (R35). -/
def State.slotOfAccess (s : State) (c : Src) (a : Nat) : Nat :=
  match c with
  | .unit _ => a / 2 ^ 40 % 8
  | .tile _ => a / 2 ^ 40 % 8
  | .ld _ => a / 2 ^ 40 % 8
  | _ => slotOf s.coord

/-- The status with which an access through a board address of another device is refused here, or 0 (R35, R221, R381). -/
def State.farStatus (s : State) (c : Src) (a n : Nat) : Nat :=
  let la := a % 2 ^ 40
  if badBoard a ∨ badRange la n ∨ (rowOf la = 3 ∧ (n ≠ 4 ∨ la % 4 ≠ 0)) then stBadAddr
  else s.injectStatus ((s.farOf c).map (·.part)) (s.boardEp (a % 2 ^ 43))

/-- A load of n bytes through an address of 43 bits (R35): local when the slot is the device's own, through the fabric when
the slot differs and the range can be reached so. -/
def load (s : State) (c : Src) (a n : Nat) : State :=
  let done := fun (x : State × Nat × List Nat) => x.1.emit (.compl x.2.1 x.2.2)
  if s.slotOfAccess c a = slotOf s.coord then done (localRead s (askSrc c) (a % 2 ^ 40) n)
  else match s.farStatus c a n, s.farOf c with
    | 0, some f => farLoad s f (s.boardEp (a % 2 ^ 43)) (a % 2 ^ 40) n
    | st, _ => done (s, st, [])

/-- A store through an address of 43 bits (R35). -/
def store (s : State) (c : Src) (a : Nat) (bytes : List Nat) : State :=
  let done := fun (x : State × Nat) => x.1.emit (.compl x.2 [])
  if s.slotOfAccess c a = slotOf s.coord then done (localWrite s (askSrc c) (a % 2 ^ 40) bytes)
  else match s.farStatus c a bytes.length, s.farOf c with
    | 0, some f => farStore s f (s.boardEp (a % 2 ^ 43)) (a % 2 ^ 40) bytes
    | st, _ => done (s, st)

/-- A register access as a command: its completion stands at the boundary (R33). `code` is the boot outcome of a write that
boots the device. -/
def regCmd (s : State) (c : Src) (a size v : Nat) (code : Boot) : State :=
  let (s, st) := regWrite s (askSrc c) a size v code
  s.emit (.compl st [])

def regReadCmd (s : State) (c : Src) (a size : Nat) : State :=
  let (s, st, d) := regRead s (askSrc c) a size
  s.emit (.compl st d)

/-! BAR accesses. -/

/-- The checks before every CXL.io memory request to function n: the link, the function, a teardown of its partition, its
IDE stream (R463, R485). The request itself is `f`. `off` is the offset that is logged. `bad` says that the
target answers BAD_ADDR, which comes before DENIED (R534). -/
def hostAccess (s : State) (n : Nat) (isWrite : Bool) (off : Nat) (ide bad : Bool) (f : State → State) : State :=
  if !s.hostOpen ∨ !s.live ∨ 9 ≤ n then s
  else if !(s.offered n) then notOffered s n 0 off
  else if s.closing n || s.ideBlocks n 0 ide then ioFail s n (if bad then stBadAddr else stDenied) off (!isWrite)
  else f s

/-- What a read ends with: its bytes, or the failure of R470. -/
def hostReadDone (n off : Nat) (x : State × Nat × List Nat) : State :=
  if x.2.1 = 0 then x.1.emit (.answer haData x.2.2) else ioFail x.1 n x.2.1 off true

/-- What a write ends with: nothing, or the failure of R470. -/
def hostWriteDone (n off : Nat) (x : State × Nat) : State :=
  if x.2 = 0 then x.1 else ioFail x.1 n x.2 off false

/-- The offset in BAR0 of the control register of HDM decoder i, which a commit writes. -/
def hdmOff (i : Nat) : Nat := 0x3000000 + 0x1310 + 0x20 * i + 0x10

/-- An access to the component registers, in one or two aligned words. -/
def compAccess (s : State) (n : Nat) (isWrite : Bool) (off size v : Nat) : State :=
  let words := List.range (size / 4)
  if isWrite then forEach words s (fun s i => compWrite s n (off + 4 * i) (v / 2 ^ (32 * i) % 2 ^ 32))
  else s.emit (.answer haData (words.foldr (fun i r => leBytes 4 (s.compRead n (off + 4 * i)) ++ r) []))

/-- HDM_COMMIT as a request of the host (R463, R471, R485). -/
def hdmRequest (s : State) (n : Via) (i base size ways gran skip : Nat) : State :=
  hostAccess s n.ld true (hdmOff i) n.ide false (fun s => hdmCommit s n.ld i base size ways gran skip)

/-- MSIX_UNMASK as a request of the host: the vector control of an entry of BAR4 (R463, R479, R485). -/
def unmaskRequest (s : State) (n : Via) (vec : Nat) : State :=
  hostAccess s n.ld true (0x10000C + 16 * vec) n.ide false (fun s => msixUnmask s n.ld vec)

/-- A function-level reset as a configuration write of the host to the device control register (R463, R485, R489). -/
def flrRequest (s : State) (n : Via) : State := hostAccess s n.ld true 0x48 n.ide false (fun s => flr s n.ld)

/-- Is an offset in the component registers, in one or two aligned words. -/
def inComp (off size : Nat) : Bool :=
  decide (0x3000000 ≤ off) && decide (off < 0x3010000) && (size == 4 || size == 8) && off % size == 0

/-- An access through BAR0 (R466, R467): register space, component registers in one or two aligned words, or a reserved
offset. -/
def bar0Access (s : State) (n : Nat) (isWrite : Bool) (off size v : Nat) (ide : Bool) : State :=
  let bad := if off < 0x3000000 then s.regStatus (ldSrc n) (0xC100000000 + off) size isWrite == stBadAddr
    else !(inComp off size)
  hostAccess s n isWrite off ide bad (fun s =>
    if off < 0x3000000 then
      let a := 0xC100000000 + off
      if isWrite then hostWriteDone n off (regWrite s (ldSrc n) a size v {})
      else hostReadDone n off (regRead s (ldSrc n) a size)
    else if inComp off size then compAccess s n isWrite (off - 0x3000000) size v
    else ioFail s n stBadAddr off (!isWrite))

/-- An access through BAR2 (R466, R467): scratch, pack buffers and sync counters. It is reserved in the FMLD. -/
def bar2Access (s : State) (n : Nat) (isWrite : Bool) (off size : Nat) (bytes : List Nat) (ide : Bool) : State :=
  let a := 0xC000000000 + off
  let out := decide (8 ≤ n) || decide (2 ^ 32 < off + size)
  hostAccess s n isWrite off ide (out || s.rangeStatus (.ld n) none a size == stBadAddr) (fun s =>
    if out then ioFail s n stBadAddr off (!isWrite)
    else if isWrite then hostWriteDone n off (memWrite s (.ld n) a bytes)
    else hostReadDone n off (memRead s (.ld n) a size))

/-- An access to the MSI-X table or the pending-bit array of LDn (R466), in one or two aligned words (PRESUMED, PCIe): word w
of the table, or word 0x4000 + w of BAR4 from 0x10_0000 on for the array, which is read-only. -/
def msixAccess (s : State) (n : Nat) (isWrite : Bool) (off size v : Nat) : State :=
  let w := (off - 0x100000) / 4
  let words := List.range (size / 4)
  if isWrite then
    if w < 0x2000 then forEach words s (fun s i => msixWrite s n (w + i) (v / 2 ^ (32 * i) % 2 ^ 32)) else s
  else
    let word := fun (i : Nat) => if i < 0x2000 then s.msixWord n (i / 4) (i % 4) else s.msixPba n (i - 0x4000)
    s.emit (.answer haData (words.foldr (fun i r => leBytes 4 (word (w + i)) ++ r) []))

/-- Is an offset of BAR4 in the MSI-X table or the pending-bit array. -/
def inMsix (off : Nat) : Bool :=
  (decide (0x100000 ≤ off) && decide (off < 0x108000)) || (decide (0x110000 ≤ off) && decide (off < 0x110100))

/-- An access through BAR4 below the Howl window: a doorbell (R468), the MSI-X structures, or a reserved offset (R466). -/
def doorbell (s : State) (n : Nat) (isWrite : Bool) (off size v : Nat) (ide : Bool) : State :=
  let p := off / 0x1000
  let i := off % 0x1000 / 4
  let vectors := decide (n < 8) && inMsix off
  let bad := if vectors then !((size == 4 || size == 8) && off % size == 0)
    else decide (8 ≤ n) || decide (16 ≤ p) || size != 4 || off % 4 != 0
  hostAccess s n isWrite off ide bad (fun s =>
    if bad then ioFail s n stBadAddr off (!isWrite)
    else if vectors then msixAccess s n isWrite off size v
    else if s.packPart p ≠ some n ∨ !(s.inRange p i) then ioFail s n stDenied off (!isWrite)
    else if s.crossFails 0 (srcStop (.ld n)) (s.dstStop (syncCtrBase + p * 0x10000)) then
      ioFail s n stDevFail off (!isWrite)
    else if isWrite then ctrAdd s p i ctrMesh (v % 2 ^ 32)
    else s.emit (.answer haData (leBytes 4 (s.ctr p i).val)))

/-- An access to the Howl window at byte x of the region (R469): a read-only view. -/
def howlWindow (s : State) (n : Nat) (isWrite : Bool) (x size : Nat) (ide : Bool) : State :=
  let off := 0x400000 + x
  let bad := decide (8 ≤ n) || decide (0x400000 < x + size)
  hostAccess s n isWrite off ide bad (fun s =>
    if bad then ioFail s n stBadAddr off (!isWrite)
    else if isWrite then ioFail s n stDenied off false
    else hostReadDone n off (memRead s (.ld n) (s.howlSlot n 0 + x) size))

/-- A write of IDE_REQ by LDn's own partition (R485). -/
def ideReq (s : State) (c : Src) (n : Nat) : State := regCmd s c (cxlpLBase n + 8) 4 1 {}

end Sys2Proof.Machine
end

