-- ==== Sys2Proof/Machine/Command.lean ====
section
/-! DEFINITION. What the meanings of the commands share: the forms in which a command answers, the guards on operands that
name a unit, the register words that a command writes, and the clocking of an address program to its next instruction. -/

namespace Sys2Proof.Machine

/-- The answer of every command: a next state. -/
abbrev Answer := Host.Outcome State Fault Refusal

/-- A command whose effect needs the compute dies (R490, R519): with them off, or for an operand that names no unit, nothing
happens. -/
def onLive (ok : Bool) (s : State) (f : State → State) : Answer := .next (if ok && s.live then f s else s)

/-- A command that Kennel serves: it also runs through a warm reset (R490). -/
def onKennel (s : State) (f : State → State) : Answer :=
  .next (if s.rd shpBase SHP_STATE.PSTATE == 0 && !s.shp.failed && !s.shp.off then f s else s)

/-- A command of the board, of Shepherd or of the rails, which find the device in any power state. -/
def onBoard (ok : Bool) (s : State) (f : State → State) : Answer := .next (if ok then f s else s)

/-! Operands that name a unit. -/

def okTile (t : Nat) : Bool := decide (t < 144)
def okPack (p : Nat) : Bool := decide (p < 16)
def okStack (h : Nat) : Bool := decide (h < 12)
def okPort (n : Nat) : Bool := decide (n < 8)
def okPart (k : Nat) : Bool := decide (k < 8)
def okQueue : QId → Bool
  | .cq t => okTile t
  | .mq t => okTile t
  | .gq p => okPack p
  | .pmq p => okPack p

/-! Register words of the rows that write one bit: the register's other read-write fields keep their values. -/

/-- The read-write fields of SEQ_QCTRL as they stand. -/
def State.qctrlWord (s : State) (q : QId) : Nat :=
  let b := qBase q
  s.rd b SEQ_QCTRL.EN + 2 * s.rd b SEQ_QCTRL.HALT + 16 * s.rd b SEQ_QCTRL.LOC + 256 * s.rd b SEQ_QCTRL.RING_LOG2

def State.scrubCtrlWord (s : State) (h : Nat) : Nat :=
  s.rd (hbmcBase h) HBMC_SCRUB_CTRL.EN + 65536 * s.rd (hbmcBase h) HBMC_SCRUB_CTRL.PASS_MIN

def State.lnkCtrlWord (s : State) (n : Nat) : Nat :=
  let b := lnkBase n
  2 * s.rd b LNK_CTRL.DISABLE + 4 * s.rd b LNK_CTRL.AUTO_RESTORE + 8 * s.rd b LNK_CTRL.IMG_EVT + 256 * s.rd b LNK_CTRL.PAD_NCLK

def State.collCtrlWord (s : State) (p : Nat) : Nat :=
  let b := s.blkBase (.coll p)
  65536 * s.rd b COLL_CTRL.RETRY_US + 2 ^ 24 * s.rd b COLL_CTRL.ERR_EVT

def State.cenCtrlWord (s : State) (k : Nat) : Nat :=
  let b := cenBase k
  s.rd b CEN_PCTRL.CMODE + 4 * s.rd b CEN_PCTRL.FPDETAIL + 16 * s.rd b CEN_PCTRL.NFEN + 32 * s.rd b CEN_PCTRL.NFPH +
    4096 * s.rd b CEN_PCTRL.NFCTR

def State.tctrlWord (s : State) : Nat :=
  s.rd trcBase TRC_TCTRL.MASTER + 2 * s.rd trcBase TRC_TCTRL.PARENT + 16 * s.rd trcBase TRC_TCTRL.PVALID

/-- The low 32 bits of CXLP_TELCMD with a request's operands (R481). -/
def telWord (ep port vc bank : Nat) : Nat :=
  ep % 2 ^ 24 + port % 16 * 2 ^ 24 + vc % 32 * 2 ^ 28 + bank % 2 * 2 ^ 33 + 2 ^ 34

/-! Address programs (R153, R154). -/

/-- The cycle and the class of the next instruction of the address program of AG n: that of a running program, or the first
one of a program that is to start. -/
def State.apDue (s : State) (t n : Nat) : Option (Nat × Nat) :=
  let u := s.agUnit t n
  let b := apBase t n
  if (s.tile t).preempting || u.waitBlk && u.starts.isEmpty then none
  else
    let run := if s.bit b SEQ_APSTAT.RUN then some (u.apNext + 1, apOp (s.apWord t n (s.rd b SEQ_APSTAT.PC))) else none
    match u.starts.head?, run with
    | none, r => r
    | some x, some (c, op) => if c < x then some (c, op) else some (x + 1, apOp (s.apWord t n 0))
    | some x, none => some (x + 1, apOp (s.apWord t n 0))

/-- May the pipeline of a tile run on to the end of cycle c before another repeat is to issue. -/
def State.mayClock (s : State) (t c : Nat) : Bool :=
  let qu := s.queue (.cq t)
  (!qu.isOpen || decide (c < qu.sNext)) &&
    (match (s.tile t).replay with
     | some r => decide (c < r.hold + 96)
     | none => true)

/-- The next instruction of the address program of AG n executes, when its class is one of `ops`: the tile's pipeline runs to
the end of its cycle. -/
def apRow (s : State) (t n : Nat) (ops : List Nat) : State :=
  match s.apDue t n with
  | some (c, op) => if ops.contains op && s.mayClock t c then runTo s t (c + 1) else s
  | none => s

/-! Retirement, and the cycle counter of a tile. -/

/-- The row COMMAND_RETIRE; the retirement may be what a preemption of the pack queues waits for (R165). -/
def retireRow (s : State) (q : QId) : State := packSettleOf (retire s q) q

/-- TILE_CYCLES passes 2^48 − 1 (R70). -/
def cyclesWrap (s : State) (t : Nat) : State :=
  if 2 ^ 48 ≤ s.tileCycles t then
    (s.setT t { s.tile t with cycBase := (s.tile t).cycBase + 2 ^ 48 }).wr (tileBase t) TILE_CYCLES.WRAP 1
  else s

/-- A packet that arrives on a port, while flits flow or when it stands among the link-local packets received. -/
def State.hears (s : State) (n : Nat) (p : Pkt) : Bool := s.flows n || (tgetD s.rte.llq n []).contains p

end Sys2Proof.Machine
end

