-- ==== Sys2Proof/Machine/Board.lean ====
section
/-! DEFINITION. The meanings of the rows of Shepherd's commands, the device-level Leash, power, sensors and trips
(17_power_clocks_shepherd.md). -/

namespace Sys2Proof.Machine

/-- DOZE (R520): A Shepherd command takes the device into Doze, or is refused with BUSY. -/
def execDoze (c : Src) (s : State) : Answer := onLive true s (fun s => regCmd s c (shpBase + 8) 4 (1 + 16) {})

/-- STANDBY (R530): A Shepherd command takes the device into Standby and loses HBM contents. -/
def execStandby (c : Src) (s : State) : Answer := onLive true s (fun s => regCmd s c (shpBase + 8) 4 (2 + 16) {})

/-- POWER_CYCLE (R530): A Shepherd command starts a power-on reset. -/
def execPowerCycle (c : Src) (code : Boot) (s : State) : Answer :=
  onLive true s (fun s => regCmd s c (shpBase + 8) 4 (3 + 16) code)

/-- SHP_RESET (R530): A Shepherd command starts a Shepherd reset. -/
def execShpReset (c : Src) (s : State) : Answer := onLive true s (fun s => regCmd s c (shpBase + 8) 4 (4 + 16) {})

/-- SHP_HBEAT (R529): A host heartbeat write restarts the host timer of the device-level Leash. -/
def execShpHbeat (c : Src) (v : Nat) (s : State) : Answer := onLive true s (fun s => regCmd s c (shpBase + 0x38) 4 v {})

/-- DEVICE_LEASH_KNL (R529): the Kennel heartbeat timer reaches LIMIT; Howls are written and a power-on reset may follow.
-/
def execDeviceLeashKnl (code : Boot) (s : State) : Answer := onBoard true s (fun s => deviceLeashKnl s code)

/-- DEVICE_LEASH_HOST (R529): the host heartbeat timer reaches LIMIT; Howls are written and every queue is halted. -/
def execDeviceLeashHost (s : State) : Answer := onBoard true s (fun s => deviceLeashHost s)

/-- HOSTCAP (R514): A write of PMU_THROT.HOSTCAP changes the requested throttle level of a die. -/
def execHostcap (c : Src) (d v : Nat) (s : State) : Answer :=
  onLive (decide (d < 2)) s (fun s => regCmd s c (pmuBase d + 8) 4 (v % 16 * 4096) {})

/-- THROTTLE_RAMP (R514): the applied throttle level moves one step toward the request. -/
def execThrottleRamp (d : Nat) (s : State) : Answer := onLive (decide (d < 2)) s (fun s => throttleRamp s d)

/-- POWER_SAMPLE (R515): every 1 µs a PMU measures die power and adjusts the power-limit level. -/
def execPowerSample (d watts : Nat) (s : State) : Answer := onLive (decide (d < 2)) s (fun s => powerSample s d watts)

/-- PARTITION_IDLE (R518): A partition idle for DELAY µs has its ACLK and SCLK gated. -/
def execPartitionIdle (k : Nat) (s : State) : Answer := onLive (okPart k) s (fun s => partitionIdle s k)

/-- SENSOR_SAMPLE (R524): A sensor is sampled, averaged and compared, raising or clearing its alarm and actions. -/
def execSensorSample (sensor v : Nat) (code : Boot) (s : State) : Answer :=
  onBoard (decide (sensor < 96)) s (fun s => sensorSample s sensor (v % 65536) code)

/-- SHP_SCFG (R524): A write of a sensor configuration refills its averaging window. -/
def execShpScfg (c : Src) (sensor v : Nat) (s : State) : Answer :=
  onLive (decide (sensor < 96)) s (fun s => regCmd s c (shpBase + 0x400 + 0x10 * sensor) 8 v {})

/-- ANALOG_TRIP (R527): the analog thermal trip of the always-on island fires at 120 °C and shuts down the device. -/
def execAnalogTrip (s : State) : Answer := onBoard true s (fun s => analogTrip s)

/-- PLL_LOSS (R516): A root PLL loses lock or the reference is lost; clocks stop and a power-on reset starts. -/
def execPllLoss (d : Nat) (code : Boot) (s : State) : Answer := onBoard (decide (d < 2)) s (fun s => pllLoss s d code)

/-- BRIDGE_FAIL (R538): A bridge channel fails in service; the bridge leaves service, all compute halts and Howls are
written. -/
def execBridgeFail (b ch : Nat) (s : State) : Answer := onBoard (decide (b < 4)) s (fun s => bridgeFail s b ch)

end Sys2Proof.Machine
end

