-- ==== Sys2Proof/Machine/Collective.lean ====
section
/-! DEFINITION. The meanings of the rows of Retriever starts and collectives (R204, 11_collectives.md). -/

namespace Sys2Proof.Machine

/-- RETRIEVER_START (R204): A Retriever becomes free and takes the next waiting RCOPY in order of arrival. -/
def execRetrieverStart (p n : Nat) (s : State) : Answer :=
  onLive (okPack p && decide (n < 4)) s (fun s => startRetriever s p n)

/-- CONTEXT_OPEN (R358): A COLL repeat opens the lowest free collective context and applies the opening checks. -/
def execContextOpen (k : Nat) (s : State) : Answer := onLive (okPart k) s (fun s => contextOpen s k)

/-- STAGE_BEGIN (R362): A member completes a stage and begins the next with credit requests. -/
def execStageBegin (k ctx : Nat) (s : State) : Answer :=
  onLive (okPart k && decide (ctx < 16)) s (fun s => stageBegin s k ctx)

/-- C_REQ (R359): A credit request arrives and is granted, held, refused or found mismatched. -/
def execCReq (p : Pkt) (s : State) : Answer := onLive true s (fun s => recvReq (takeEjected s p) p)

/-- C_REQ_RETRY (R359): RETRY_US passes after a RETRY grant and the credit request is sent again. -/
def execCReqRetry (k ctx : Nat) (s : State) : Answer :=
  onLive (okPart k && decide (ctx < 16)) s (fun s => reqRetry s k ctx)

/-- C_GRANT (R362): A grant arrives with the receiver's context, endpoint and initial credit, or an error status. -/
def execCGrant (p : Pkt) (s : State) : Answer := onLive true s (fun s => recvGrant (takeEjected s p) p)

/-- C_DATA (R363): collective data arrives in the window and is reduced, forwarded or written to DST. -/
def execCData (p : Pkt) (s : State) : Answer := onLive true s (fun s => recvData (takeEjected s p) p)

/-- C_TOKEN (R356): A barrier token arrives and the next step's token is sent. -/
def execCToken (p : Pkt) (s : State) : Answer := onLive true s (fun s => recvToken (takeEjected s p) p)

/-- C_CREDIT (R362): A credit return arrives and frees window space for the sender. -/
def execCCredit (p : Pkt) (s : State) : Answer := onLive true s (fun s => recvCredit (takeEjected s p) p)

/-- C_ABORT (R370): an abort arrives and completes the open context with the carried status, or is held. -/
def execCAbort (p : Pkt) (s : State) : Answer := onLive true s (fun s => recvAbort (takeEjected s p) p)

/-- COLL_CTRL_ABORT (R377): A write of COLL_CTRL.ABORT aborts open contexts with ABORTED. -/
def execCollCtrlAbort (c : Src) (p mask : Nat) (s : State) : Answer :=
  onLive (okPack p) s (fun s => regCmd s c (collBase p) 4 (s.collCtrlWord p + mask % 65536) {})

end Sys2Proof.Machine
end

