-- ==== Sys2Proof/Machine/Fabric.lean ====
section
/-! DEFINITION. The meanings of the rows of the router and the packets that reach its units (10_routing.md). -/

namespace Sys2Proof.Machine

/-- HEAD_FLIT (R323): A head flit reaches the front of its VC and the router computes its route, side step or discard. -/
def execHeadFlit (port vc : Nat) (s : State) : Answer :=
  onLive (decide (port < 9) && decide (vc < 21)) s (fun s => headFlit s (vcKey port vc))

/-- ESC_WAIT (R325): A packet waits ESC_WAIT NCLK without a grant and moves to the escape VC. -/
def execEscWait (port vc : Nat) (s : State) : Answer :=
  onLive (decide (port < 9) && decide (vc < 21)) s (fun s => escWait s (vcKey port vc))

/-- CREDIT (R321): A CREDIT packet arrives and returns credits to the sender. -/
def execCredit (n : Nat) (p : Pkt) (s : State) : Answer :=
  onLive (okPort n) s (fun s => if s.hears n p then recvCredits (takeLocal s n p) n p else s)

/-- CREDIT_RETURN_DELAY (R321): 128 NCLK pass after the first pending credit return and a CREDIT packet is sent. -/
def execCreditReturnDelay (n vc : Nat) (s : State) : Answer :=
  onLive (okPort n && decide (vc < 21)) s (fun s => creditDelay s (vcKey n vc))

/-- LSTATE (R560): an LSTATE notice arrives and updates the link-state map and is flooded. -/
def execLstate (n : Nat) (p : Pkt) (s : State) : Answer :=
  onLive (okPort n) s (fun s => if s.hears n p then recvLstate (takeLocal s n p) n p else s)

/-- NOTICE (R335): A NOTICE with the expected sequence number reaches the upstream end, which re-injects its retry
buffer. -/
def execNotice (n : Nat) (p : Pkt) (s : State) : Answer :=
  onLive (okPort n) s (fun s => if s.hears n p then recvNotice (takeLocal s n p) p else s)

/-- NOTICE_WAIT (R336): no NOTICE arrives within NOTICE_WAIT and the retry buffer is discarded with LOST packets. -/
def execNoticeWait (n : Nat) (s : State) : Answer := onLive (okPort n) s (fun s => noticeWait s n)

/-- RD (R317): A read request packet arrives and is served, with RD_DATA or an ACK carrying an error. -/
def execRd (p : Pkt) (s : State) : Answer := onLive true s (fun s => recvRd (takeEjected s p) p)

/-- RD_DATA (R332): read data arrives and its bytes are accounted to the transfer. -/
def execRdData (p : Pkt) (s : State) : Answer := onLive true s (fun s => recvRdData (takeEjected s p) p)

/-- WR (R332): A write packet arrives, is written and acknowledged at its tail. -/
def execWr (p : Pkt) (s : State) : Answer := onLive true s (fun s => recvWrite (takeEjected s p) p)

/-- ACK (R332): an acknowledgment arrives and accounts its bytes and status to the transfer. -/
def execAck (p : Pkt) (s : State) : Answer := onLive true s (fun s => recvAck (takeEjected s p) p)

/-- SYNC (R317): A sync packet arrives and its add or set is checked and passed to the counter. -/
def execSync (p : Pkt) (s : State) : Answer := onLive true s (fun s => recvSync (takeEjected s p) p)

/-- RD_FWD (R318): A forward-read packet arrives and the data is sent as FWD_DATA to the forward endpoint. -/
def execRdFwd (p : Pkt) (s : State) : Answer := onLive true s (fun s => recvRdFwd (takeEjected s p) p)

/-- FWD_DATA (R318): forwarded data arrives, is written and acknowledged to the original issuer. -/
def execFwdData (p : Pkt) (s : State) : Answer := onLive true s (fun s => recvFwd (takeEjected s p) p)

/-- LOST (R336): A LOST packet arrives and accounts undelivered bytes with LINK_LOST. -/
def execLost (p : Pkt) (s : State) : Answer := onLive true s (fun s => recvLost (takeEjected s p) p)

/-- XFER_TIMEOUT (R333): A transfer is not complete after XFER_TO ms and completes with XFER_TIMEOUT. -/
def execXferTimeout (id : Nat) (s : State) : Answer := onLive true s (fun s => xferTimeout s id)

/-- TELEM_RQ (R339): A telemetry request arrives and is answered with TELEM_RP or discarded. -/
def execTelemRq (p : Pkt) (s : State) : Answer := onLive true s (fun s => recvTelRq (takeEjected s p) p)

/-- TELEM_RP (R481): A telemetry reply arrives and its counters are placed in CXLP_TELDATA. -/
def execTelemRp (p : Pkt) (s : State) : Answer := onLive true s (fun s => recvTelRp (takeEjected s p) p)

/-- HIST_SAMPLE (R338): every PERIOD NCLK the occupancy histograms of each VC are sampled. -/
def execHistSample (s : State) : Answer := onLive true s (fun s => histSample s)

/-- RTE_TSNAP (R338): fabric time reaches RTE_TSNAP and all telemetry counters are copied to the snapshot bank. -/
def execRteTsnap (s : State) : Answer := onLive true s (fun s => telSnapshot s)

end Sys2Proof.Machine
end

