-- ==== Sys2Proof/Machine/HostPort.lean ====
section
/-! DEFINITION. The meanings of the rows of the CXL host port (15_host_interface.md). -/

namespace Sys2Proof.Machine

/-- CXL_LINK_UP (R462): the host link enters CXL operation and records direct or switched mode. -/
def execCxlLinkUp (rate width mode reason : Nat) (s : State) : Answer :=
  onLive true s (fun s => cxlLinkUp s rate width mode reason)

/-- CXL_LINK_DOWN (R492): the host link goes down, ending IDE streams and failing device accesses in flight. -/
def execCxlLinkDown (s : State) : Answer := onLive true s (fun s => cxlLinkDown s)

/-- CONFIG_REQUEST (R463): A configuration request reaches an LD or the FMLD and is answered. -/
def execConfigRequest (n : Nat) (isWrite : Bool) (reg v : Nat) (ide : Bool) (s : State) : Answer :=
  onBoard (decide (n < 9)) s (fun s => configRequest s n isWrite reg v ide)

/-- BAR0_ACCESS (R467): A host access through BAR0 reaches register space or component registers. -/
def execBar0Access (n : Nat) (isWrite : Bool) (off size v : Nat) (ide : Bool) (s : State) : Answer :=
  onLive (decide (n < 9) && decide (size ≤ 64)) s (fun s => bar0Access s n isWrite off size v ide)

/-- BAR2_ACCESS (R467): A host access through BAR2 reaches scratch, pack buffers or sync counters. -/
def execBar2Access (n : Nat) (isWrite : Bool) (off size : Nat) (bytes : List Nat) (ide : Bool) (s : State) : Answer :=
  onLive (decide (n < 9) && decide (0 < size) && decide (size ≤ 4096)) s (fun s =>
    bar2Access s n isWrite off size ((bytes.map (fun b => b % 256)).take size) ide)

/-- DOORBELL (R468): A host doorbell write adds to a sync counter, or a read returns its value. -/
def execDoorbell (n : Nat) (isWrite : Bool) (off size v : Nat) (ide : Bool) (s : State) : Answer :=
  onLive (decide (n < 9) && decide (off < 0x400000)) s (fun s => doorbell s n isWrite off size v ide)

/-- HOWL_WINDOW_WRITE (R469): A host write to the Howl window is discarded and logged with DENIED. -/
def execHowlWindowWrite (n : Nat) (isWrite : Bool) (x size : Nat) (ide : Bool) (s : State) : Answer :=
  onLive (decide (n < 9) && decide (0 < size) && decide (size ≤ 4096)) s (fun s => howlWindow s n isWrite x size ide)

/-- CXL_MEM_READ (R472): A host CXL.mem read is decoded through the HDM decoder to partition HBM. -/
def execCxlMemRead (n hpa len : Nat) (s : State) : Answer := onLive (decide (n < 8)) s (fun s => cxlMemRead s n hpa len)

/-- CXL_MEM_WRITE (R472): A host CXL.mem write is decoded through the HDM decoder to partition HBM. -/
def execCxlMemWrite (n hpa : Nat) (bytes : List Nat) (s : State) : Answer :=
  onLive (decide (n < 8)) s (fun s => cxlMemWrite s n hpa (bytes.map (fun b => b % 256)))

/-- HDM_COMMIT (R471): the host commits an HDM decoder, which fails when its range exceeds the LD's memory. -/
def execHdmCommit (n : Via) (dec base size ways gran skip : Nat) (s : State) : Answer :=
  onLive (decide (n.ld < 8) && decide (dec < 2)) s (fun s => hdmRequest s n dec base size ways gran skip)

/-- SNOOP (R477): A host snoop arrives and is answered with RspIHitI. -/
def execSnoop (s : State) : Answer := onLive true s (fun s => snoop s)

/-- FUNCTION_LEVEL_RESET (R489): A function-level reset of LDn resets partition PTn while keeping its existence and HBM.
-/
def execFunctionLevelReset (n : Via) (s : State) : Answer := onLive (decide (n.ld < 8)) s (fun s => flrRequest s n)

/-- SPDM_REQUEST (R447): an SPDM request through DOE is answered with BAK-signed responses. -/
def execSpdmRequest (n : DoeTo) (bytes : List Nat) (s : State) : Answer :=
  onLive (decide (n.fn < 9)) s (fun s => doeRequest s n (bytes.map (fun b => b % 256)))

/-- IDE_KM (R483): an IDE_KM exchange in a secured session sets up the keys of an IDE stream. -/
def execIdeKm (n : Nat) (link : IdeSetup) (s : State) : Answer :=
  onLive (decide (n < 9)) s (fun s => ideKm s n link.link link.key)

/-- IDE_INTEGRITY_FAILURE (R484): an IDE integrity failure ends the stream and destroys its keys. -/
def execIdeIntegrityFailure (n : Nat) (s : State) : Answer := onLive (decide (n < 9)) s (fun s => ideFailure s n)

/-- IDE_REQ (R485): A write of CXLP_LDCTRL.IDE_REQ requires IDE for the LD's accesses. -/
def execIdeReq (c : Src) (n : Nat) (s : State) : Answer := onLive (decide (n < 8)) s (fun s => ideReq s c n)

/-- IDENTIFY (R465): an FM API Identify returns the device identity and 8 LDs. -/
def execIdentify (s : State) : Answer := onLive true s (fun s => fmIdentify s)

/-- GET_LD_INFO (R465): an FM API Get LD Info returns the LD count and memory sizes. -/
def execGetLdInfo (s : State) : Answer := onLive true s (fun s => fmLdInfo s)

/-- GET_LD_ALLOCATIONS (R465): an FM API Get LD Allocations returns the LD memory sizes. -/
def execGetLdAllocations (s : State) : Answer := onLive true s (fun s => fmLdAllocations s)

/-- SET_LD_ALLOCATIONS (R465): an FM API Set LD Allocations is answered with Unsupported, as is any command that the table
does not list. -/
def execSetLdAllocations (s : State) : Answer := onLive true s (fun s => fmSetAllocations s)

/-- HOST_RETRIEVER_PIECE (R476): A host-port Retriever takes the next piece of device-initiated host access in round
robin. -/
def execHostRetrieverPiece (s : State) : Answer := onLive true s (fun s => hostPiece s)

/-- COMPLETION_TIMEOUT (R479): A device access to host memory is not answered within CTO_US and completes with HOST_ERR.
-/
def execCompletionTimeout (piece : Nat) (s : State) : Answer := onLive true s (fun s => completionTimeout s piece)

/-- MSIX_UNMASK (R479): A masked MSI-X vector is unmasked and its pending message is sent. -/
def execMsixUnmask (n : Via) (vec : Nat) (s : State) : Answer :=
  onLive (decide (n.ld < 8) && decide (vec < 2048)) s (fun s => unmaskRequest s n vec)

/-- TELCMD_GO (R481): A write of CXLP_TELCMD.GO sends one telemetry request to a router. -/
def execTelcmdGo (c : Src) (ep port vc bank : Nat) (s : State) : Answer :=
  onLive true s (fun s => regCmd s c (cxlpBase + 0x40) 8 (telWord ep port vc bank) {})

/-- TELCMD_TIMEOUT (R481): no telemetry reply arrives within 100 µs and ERR is set. -/
def execTelcmdTimeout (s : State) : Answer := onLive true s (fun s => telcmdTimeout s)

/-- HOST_COMPLETION (R479): the host's answer to a device-initiated access arrives: read data, a global-observation
response, or Unsupported Request, Completer Abort or poison. -/
def execHostCompletion (piece : Nat) (ans : HostAns) (s : State) : Answer :=
  onLive true s (fun s => hostCompletion s piece ans)

/-- KENNEL_HEARTBEAT (R529): kennel's firmware writes its private heartbeat port and restarts the Kennel timer of the
device-level Leash. -/
def execKennelHeartbeat (s : State) : Answer := onBoard true s (fun s => kennelBeat s)

end Sys2Proof.Machine
end

