-- ==== Sys2Proof/Machine/Issue.lean ====
section
/-! DEFINITION. The meanings of the rows of the commands of the queues (06_instruction_reference.md). -/

namespace Sys2Proof.Machine

/-- NOP (R211): A NOP command issues and retires in order and does no work. -/
def execNop (q : QId) (s : State) : Answer := onLive (okQueue q) s (fun s => issuePlain s q opNOP)

/-- MMA (R177): A matrix command runs one pass of one K block per repeat on the array into an accumulator bank. -/
def execMma (t n : Nat) (s : State) : Answer := onLive (okTile t) s (fun s => issueWork n s t opMMA)

/-- MMA_LB (R181): A low-bit matrix command runs passes on the low-bit lanes of an index-8 tile. -/
def execMmaLb (t n : Nat) (s : State) : Answer := onLive (okTile t) s (fun s => issueWork n s t opMMALB)

/-- VOP (R186): A vector command performs one FP32 operation on every lane of V vectors per repeat. -/
def execVop (t n : Nat) (s : State) : Answer := onLive (okTile t) s (fun s => issueWork n s t opVOP)

/-- VTR (R189): A vector command evaluates one transcendental function per lane. -/
def execVtr (t n : Nat) (s : State) : Answer := onLive (okTile t) s (fun s => issueWork n s t opVTR)

/-- VCVT (R193): A vector command converts vectors between formats, including the drain of a bank. -/
def execVcvt (t n : Nat) (s : State) : Answer := onLive (okTile t) s (fun s => issueWork n s t opVCVT)

/-- VRES (R197): A vector command performs the fused residual add with an FP32 output and a narrow output. -/
def execVres (t n : Nat) (s : State) : Answer := onLive (okTile t) s (fun s => issueWork n s t opVRES)

/-- AGLD (R199): A command writes one register of one address generator, or clears its FIFO. -/
def execAgld (t n : Nat) (s : State) : Answer := onLive (okTile t) s (fun s => issueWork n s t opAGLD)

/-- MOVE (R201): A command copies bytes within the board through the pack switch and the fabric. -/
def execMove (q : QId) (s : State) : Answer := onLive (okQueue q) s (fun s => issueMove s q)

/-- RCOPY (R203): A command copies bytes through one of the pack's Retrievers, with one side on the issuing device. -/
def execRcopy (q : QId) (s : State) : Answer := onLive (okQueue q) s (fun s => issueRcopy s q)

/-- COLL (R205): A group-queue command starts one collective per repeat from its descriptors. -/
def execColl (q : QId) (s : State) : Answer := onLive (okQueue q) s (fun s => issueColl s q)

/-- SIGNAL (R206): A command adds to a sync counter, sends an MSI-X vector or writes a word to host memory. -/
def execSignal (q : QId) (s : State) : Answer := onLive (okQueue q) s (fun s => issueSignal s q)

/-- WAIT (R207): A command holds its queue until a counter of its pack reaches a threshold, and may consume it. -/
def execWait (q : QId) (s : State) : Answer := onLive (okQueue q) s (fun s => issueWait s q)

/-- SKIP_IF (R208): A command reads a counter and retires the next NSKIP commands without work when the condition holds.
-/
def execSkipIf (q : QId) (s : State) : Answer := onLive (okQueue q) s (fun s => issueSkipIf s q)

/-- OVERLAY (R209): A command requests a switch of the partition to a stored overlay. -/
def execOverlay (q : QId) (s : State) : Answer := onLive (okQueue q) s (fun s => issueOverlay s q)

/-- PHASE (R210): A command sets the queue's phase at its retirement. -/
def execPhase (q : QId) (s : State) : Answer := onLive (okQueue q) s (fun s => issuePhase s q)

/-- MARK (R211): A command writes one trace record with its tag, class, queue and fabric time. -/
def execMark (q : QId) (s : State) : Answer := onLive (okQueue q) s (fun s => issueMark s q)

/-- SAVE (R212): A CQ command writes the tile's save record to HBM. -/
def execSave (t : Nat) (s : State) : Answer := onLive (okTile t) s (fun s => issueSave s t)

/-- RESTORE (R214): A CQ command reads and loads a save record into the tile's accumulators and address generators. -/
def execRestore (t : Nat) (s : State) : Answer := onLive (okTile t) s (fun s => issueRestore s t)

/-- SCALED_REPLAY (R66): after an overflow, the bank is restored from the shadow plane and the command runs again with
lowered scales. -/
def execScaledReplay (t : Nat) (s : State) : Answer := onLive (okTile t) s (fun s => startReplay s t)

end Sys2Proof.Machine
end

