-- ==== Sys2Proof/Machine/LinkRows.lean ====
section
/-! DEFINITION. The meanings of the rows of flits, frames, lanes, training and keys of a Dweilo port
(09_fabric_links.md), and the flit time of an output port. -/

namespace Sys2Proof.Machine

/-- FLIT (R283): A flit arrives and is checked by CRC, acknowledged, held or discarded with NAK. -/
def execFlit (n : Nat) (f : Flit) (s : State) : Answer := onLive (okPort n) s (fun s => recvFlit s n f)

/-- FRAME (R292): A frame of 16 flits is authenticated and its packets are passed to the router, or the link goes down
with AUTH. -/
def execFrame (n slot : Nat) (ok : Bool) (s : State) : Answer :=
  onLive (okPort n && decide (slot < 9)) s (fun s => recvFrame s n slot ok)

/-- PAD (R290): A frame open for PAD_NCLK is completed with pad flits. -/
def execPad (n slot : Nat) (s : State) : Answer := onLive (okPort n && decide (slot < 9)) s (fun s => padTimeout s n slot)

/-- ACK_TIMEOUT (R288): the oldest flit in the retry buffer waits 5 µs without ACK and the direction is declared failed.
-/
def execAckTimeout (n : Nat) (s : State) : Answer := onLive (okPort n) s (fun s => ackTimeout s n)

/-- NO_SIGNAL (R288): no good flit arrives for 5 µs and the direction is declared failed. -/
def execNoSignal (n : Nat) (s : State) : Answer := onLive (okPort n) s (fun s => noSignal s n)

/-- LANE_BAD (R298): A receiver marks a lane bad and narrows the direction under a new mask. -/
def execLaneBad (n lane : Nat) (s : State) : Answer :=
  onLive (okPort n && decide (lane < 12)) s (fun s => laneBadEv s n lane)

/-- DEGRADE_NOTICE (R298): A DEGRADE notice arrives and the sender switches its striping to the new mask. -/
def execDegradeNotice (n mask : Nat) (s : State) : Answer := onLive (okPort n) s (fun s => applyNotice s n (mask % 4096))

/-- RESTORE_POSSIBLE (R299): background retraining finds a wider mask possible and a RESTORE notice is sent. -/
def execRestorePossible (n lanes : Nat) (s : State) : Answer := onLive (okPort n) s (fun s => restorePossible s n lanes)

/-- RESTORE_NOTICE (R299): A RESTORE notice arrives and the sender widens its striping as for a degrade. -/
def execRestoreNotice (n mask : Nat) (s : State) : Answer := onLive (okPort n) s (fun s => applyNotice s n (mask % 4096))

/-- SIGNAL_DETECT (R300): at least 6 lanes show signal and the port leaves DETECT for PHY_TRAIN. -/
def execSignalDetect (n : Nat) (s : State) : Answer := onLive (okPort n) s (fun s => signalDetect s n)

/-- PHY_TRAIN_DONE (R300): per-lane equalisation completes and the port enters ALIGN. -/
def execPhyTrainDone (n hops : Nat) (s : State) : Answer := onLive (okPort n) s (fun s => phyDone s n hops)

/-- ALIGN_DONE (R300): FEC lock, deskew and the lane mask complete and the port enters IDENT. -/
def execAlignDone (n good tx : Nat) (s : State) : Answer := onLive (okPort n) s (fun s => alignDone s n good (tx % 4096))

/-- IDENTITY_RECORD (R303): A peer's identity record arrives and is checked, holding the link or continuing to AUTH. -/
def execIdentityRecord (n : Nat) (bytes : List Nat) (s : State) : Answer :=
  onLive (okPort n) s (fun s => identRecord s n (bytes.map (fun b => b % 256)))

/-- AUTH_DONE (R300): both Kennels complete certificates, ECDH and key installation and the port enters CONFIRM. -/
def execAuthDone (n : Nat) (ok : Bool) (s : State) : Answer := onLive (okPort n) s (fun s => authDone s n ok)

/-- CONFIRM_DONE (R300): A slot-8 frame is authenticated in each direction and the link becomes ACTIVE. -/
def execConfirmDone (n : Nat) (s : State) : Answer := onLive (okPort n) s (fun s => confirmDone s n)

/-- TRAIN_TIMEOUT (R300): A training limit passes and the link fails with TRAIN_TIMEOUT. -/
def execTrainTimeout (n : Nat) (s : State) : Answer := onLive (okPort n) s (fun s => trainTimeout s n)

/-- BACKOFF_EXPIRY (R311): the BACKOFF wait ends and the link returns to DETECT. -/
def execBackoffExpiry (n : Nat) (s : State) : Answer := onLive (okPort n) s (fun s => backoffExpiry s n)

/-- ACTIVE_10S (R311): A link stays ACTIVE for 10 s and its backoff wait returns to 1 ms. -/
def execActive10s (n : Nat) (s : State) : Answer := onLive (okPort n) s (fun s => active10s s n)

/-- HELD_SIGNAL_RETURN (R307): signal returns after at least 2 s of loss and a held link goes to DETECT. -/
def execHeldSignalReturn (n ms : Nat) (s : State) : Answer := onLive (okPort n) s (fun s => heldReturn s n ms)

/-- RETRAIN (R308): A write of LNK_CTRL.RETRAIN takes the link down with HOST and restarts it at DETECT. -/
def execRetrain (c : Src) (n : Nat) (s : State) : Answer :=
  onLive (okPort n) s (fun s => regCmd s c (lnkBase n + 0x18) 4 (s.lnkCtrlWord n + 1) {})

/-- DISABLE (R308): A write of LNK_CTRL.DISABLE holds the port in DISABLED, or releases it. -/
def execDisable (c : Src) (n v : Nat) (s : State) : Answer :=
  onLive (okPort n) s (fun s => regCmd s c (lnkBase n + 0x18) 4 (s.lnkCtrlWord n - 2 * s.rd (lnkBase n) LNK_CTRL.DISABLE + 2 * (v % 2)) {})

/-- REKEY_REQ (R294): A write of LNK_REKEY.REQ starts a rekey of the link. -/
def execRekeyReq (c : Src) (n : Nat) (s : State) : Answer :=
  onLive (okPort n) s (fun s => regCmd s c (lnkBase n + 0x40) 4 (s.rd (lnkBase n) LNK_REKEY.THR_LOG2 + 256) {})

/-- REKEY_THRESHOLD (R294): A frame counter reaches 2^THR_LOG2 and a rekey starts. -/
def execRekeyThreshold (n : Nat) (s : State) : Answer := onLive (okPort n) s (fun s => rekeyThreshold s n)

/-- KEYX (R294): A key-exchange packet of a rekey or training arrives in slot 8. -/
def execKeyx (n : Nat) (p : Pkt) (s : State) : Answer := onLive (okPort n) s (fun s => recvKeyx (takeLocal s n p) n p)

/-- REKEY_DONE (R294): A rekey completes and each slot switches key phase at its next frame start. -/
def execRekeyDone (n : Nat) (s : State) : Answer := onLive (okPort n) s (fun s => rekeyDone s n)

/-- FRAME_COUNTER_LIMIT (R296): A slot's frame counter reaches 2^48 and the slot stalls until a new key phase. -/
def execFrameCounterLimit (n slot : Nat) (s : State) : Answer :=
  onLive (okPort n && decide (slot < 9)) s (fun s => counterLimit s n slot)

/-- PORTS_READY (R310): kennel reports the ports ready and Shepherd opens the through-paths. -/
def execPortsReady (s : State) : Answer := onLive true s (fun s => portsReady s)

/-- FLIT_TIME (R329): at each flit time an output port chooses one flit by slot and class arbitration, or a null flit,
and sends it. -/
def execFlitTime (n : Nat) (s : State) : Answer := onLive (okPort n) s (fun s => flitTime s n)

/-- RECEIVER_DESKEW (R298): after a degrade or restore, the receiver finds alignment markers on the new active lanes,
deskews, sets NAK and accepts flits again. -/
def execReceiverDeskew (n : Nat) (s : State) : Answer :=
  onLive (okPort n) s (fun s => if s.lanesOn n then receiverDeskew s n else s)

end Sys2Proof.Machine
end

