-- ==== Sys2Proof/Machine/Mailbox.lean ====
section
/-! DEFINITION. The meanings of the rows of Kennel's mailbox commands (14_security_partitions.md,
16_reset_boot_firmware.md). -/

namespace Sys2Proof.Machine

/-- GET_INFO (R458): A mailbox command returns the device's identity, grade, stepping, versions and levels. -/
def execGetInfo (s : State) : Answer := onKennel s (fun s => mbRun s 0x01 mbGetInfo)

/-- GET_CERT (R458): A mailbox command returns part of the slot-0 certificate chain. -/
def execGetCert (s : State) : Answer := onKennel s (fun s => mbRun s 0x02 mbGetCert)

/-- GET_MEAS (R458): A mailbox command returns one measurement. -/
def execGetMeas (s : State) : Answer := onKennel s (fun s => mbRun s 0x03 mbGetMeas)

/-- ENROLL_OPKEY (R440): A mailbox command writes an operator key into a fuse slot. -/
def execEnrollOpkey (s : State) : Answer := onKennel s (fun s => mbRun s 0x10 mbEnroll)

/-- REVOKE_OPKEY (R440): A mailbox command revokes an operator key. -/
def execRevokeOpkey (s : State) : Answer := onKennel s (fun s => mbRun s 0x11 mbRevoke)

/-- LOAD_BASE (R384): A mailbox command checks and applies a base image and creates its partitions. -/
def execLoadBase (s : State) : Answer := onKennel s (fun s => mbRun s 0x20 mbLoadBase)

/-- PART_REQ (R443): A mailbox command checks a partition request and creates or tears down a partition. -/
def execPartReq (s : State) : Answer := onKennel s (fun s => mbRun s 0x21 mbPartReq)

/-- DEBUG_CHALLENGE (R451): A mailbox command returns a fresh debug nonce. -/
def execDebugChallenge (s : State) : Answer := onKennel s (fun s => mbRun s 0x30 mbChallenge)

/-- DEBUG_UNLOCK (R451): A mailbox command verifies a debug token and enters the debug state. -/
def execDebugUnlock (s : State) : Answer := onKennel s (fun s => mbRun s 0x31 mbUnlock)

/-- FW_BEGIN (R505): A mailbox command discards any staged image and starts receiving a firmware image. -/
def execFwBegin (s : State) : Answer := onKennel s (fun s => mbRun s 0x40 mbFwBegin)

/-- FW_BLOCK (R505): A mailbox command fetches one image block from host memory and checks its CRC. -/
def execFwBlock (ans : HostAns) (s : State) : Answer := onKennel s (fun s => mbRun s 0x41 (fun s => mbFwBlock s ans))

/-- FW_VERIFY (R506): A mailbox command checks the staged image and returns its digest. -/
def execFwVerify (s : State) : Answer := onKennel s (fun s => mbRun s 0x42 mbFwVerify)

/-- FW_ACTIVATE (R507): A mailbox command programs the verified image into the boot flash and blows fuse steps. -/
def execFwActivate (ok1 ok2 : Bool) (s : State) : Answer :=
  onKennel s (fun s => mbRun s 0x43 (fun s => mbFwActivate s ok1 ok2))

/-- FW_ABORT (R504): A mailbox command aborts a firmware update. -/
def execFwAbort (s : State) : Answer := onKennel s (fun s => mbRun s 0x44 mbFwAbort)

/-- FW_STATUS (R504): A mailbox command returns the update state and image versions. -/
def execFwStatus (s : State) : Answer := onKennel s (fun s => mbRun s 0x45 mbFwStatus)

/-- KNL_DONE (R456): A running mailbox command finishes, sets DONE and RESULT and raises KNL_DONE. -/
def execKnlDone (s : State) : Answer := onKennel s (fun s => knlDone s)

end Sys2Proof.Machine
end

