-- ==== Sys2Proof/Machine/Memory.lean ====
section
/-! DEFINITION. The meanings of the rows of loads, stores, register accesses and the HBM controllers (01_anatomy.md,
08_memory_system.md). -/

namespace Sys2Proof.Machine

/-- LOAD (R35): A load through a local or board address is checked and served locally or through the fabric. -/
def execLoad (c : Src) (a n : Nat) (s : State) : Answer := onLive true s (fun s => load s c (a % 2 ^ 43) n)

/-- STORE (R35): A store through a local or board address is checked and served locally or through the fabric. -/
def execStore (c : Src) (a : Nat) (bytes : List Nat) (s : State) : Answer :=
  onLive true s (fun s => store s c (a % 2 ^ 43) (bytes.map (fun b => b % 256)))

/-- REG_WRITE (R34): A write to a register without behaviour of its own takes effect at the register's stop. -/
def execRegWrite (c : Src) (a size v : Nat) (s : State) : Answer :=
  onLive true s (fun s => regCmd s c (a % 2 ^ 40) size v {})

/-- REG_READ_CLEAR (R15): A read of an RC register returns its value and clears it. -/
def execRegReadClear (c : Src) (a size : Nat) (s : State) : Answer :=
  onLive true s (fun s => regReadCmd s c (a % 2 ^ 40) size)

/-- HBM_READ (R256): A controller reads and decodes a sector, correcting or reporting MEM_UE. -/
def execHbmRead (x : SrcAt) (upset : List (Nat × Nat)) (s : State) : Answer :=
  onLive (decide (x.n < 12 * 2 ^ 31)) s (fun s => hbmRead s x.c x.n upset)

/-- HBM_WRITE (R255): A controller writes a whole sector, or merges a partial write indivisibly. -/
def execHbmWrite (x : SrcAt) (bytes : List Nat) (s : State) : Answer :=
  onLive (decide (x.n < 12 * 2 ^ 36)) s (fun s => hbmWrite s x.c x.n (bytes.map (fun b => b % 256)))

/-- SCRUB_READ (R267): the patrol scrub reads the next sector at its paced rate and writes back or logs it. -/
def execScrubRead (h : Nat) (upset : List (Nat × Nat)) (s : State) : Answer :=
  onLive (okStack h) s (fun s => scrubRead s h upset)

/-- HBMC_SCRUB_NOW (R268): A write of NOW starts an immediate scrub pass. -/
def execHbmcScrubNow (c : Src) (h : Nat) (s : State) : Answer :=
  onLive (okStack h) s (fun s => regCmd s c (hbmcBase h + 0x20) 4 (s.scrubCtrlWord h + 2) {})

/-- REMAP_REQ (R269): A write of HBMC_REMAPc.REQ starts a remap of a pin or sets REFUSED. -/
def execRemapReq (c : Src) (h pc pin : Nat) (s : State) : Answer :=
  onLive (okStack h && decide (pc < 32)) s (fun s => regCmd s c (hbmcBase h + 0x2000 + 8 * pc) 4 (pin % 64 + 64) {})

/-- REMAP_PASS_STEP (R270): the remap pass rewrites the next sector with SP carrying the remapped pin's symbol. -/
def execRemapPassStep (h pc : Nat) (s : State) : Answer :=
  onLive (okStack h && decide (pc < 32)) s (fun s => remapStep s h pc)

/-- REFRESH (R275): A controller refreshes its stack bank by bank at an interval set by temperature. -/
def execRefresh (h : Nat) (x : Cells) (s : State) : Answer :=
  onLive (okStack h) s (fun s => refreshStep s h x.temp x.lost)

/-- ZERO_FILL_DONE (R274): the zero fill of a new partition's stacks completes and HBMC_DOMAIN.VALID is set. -/
def execZeroFillDone (s : State) : Answer := onLive true s (fun s => zeroFillDone s)

end Sys2Proof.Machine
end

