-- ==== Sys2Proof/Machine/Overlay.lean ====
section
/-! DEFINITION. The meanings of the rows of overlays and the closes of phases (12_shape_images.md,
13_training_support.md). -/

namespace Sys2Proof.Machine

/-- OVERLAY_LOAD (R393): A write of SHAPE_OVCTRL.LOAD checks and stores the overlay in the staging window. -/
def execOverlayLoad (c : Src) (k id : Nat) (s : State) : Answer :=
  onLive (okPart k) s (fun s => regCmd s c (shapePBase k + 0x10) 4 (id % 16 + 256) {})

/-- OVERLAY_DROP (R394): A write of SHAPE_OVCTRL.DROP removes a stored overlay unless it is pending. -/
def execOverlayDrop (c : Src) (k id : Nat) (s : State) : Answer :=
  onLive (okPart k) s (fun s => regCmd s c (shapePBase k + 0x10) 4 (id % 16 + 512) {})

/-- OVERLAY_ARRIVAL (R395): A participating queue arrives at its OVERLAY once its earlier work allows. -/
def execOverlayArrival (q : QId) (s : State) : Answer := onLive (okQueue q) s (fun s => overlayArrival s q)

/-- OVERLAY_READY (R404): the OVERLAY of a queue becomes ready after release and, in a GQ, after earlier collectives
complete. -/
def execOverlayReady (q : QId) (s : State) : Answer := onLive (okQueue q) s (fun s => overlayReady s q)

/-- CLOSE (R407): A write of CEN_PCTRL.CLOSE closes the partition's phase records. -/
def execClose (c : Src) (k : Nat) (s : State) : Answer :=
  onLive (okPart k) s (fun s => regCmd s c (cenBase k) 4 (s.cenCtrlWord k + 8) {})

/-- NFCLR (R423): A write of CEN_PCTRL.NFCLR clears the sticky NAN and INF flags. -/
def execNfclr (c : Src) (k : Nat) (s : State) : Answer :=
  onLive (okPart k) s (fun s => regCmd s c (cenBase k) 4 (s.cenCtrlWord k + 2048) {})

end Sys2Proof.Machine
end

