-- ==== Sys2Proof/Machine/Program.lean ====
section
/-! DEFINITION. The meanings of the rows of the instructions of the address programs (R153, R154). -/

namespace Sys2Proof.Machine

/-- MOVI (R154): an address-program instruction loads an immediate into a register. -/
def execMovi (t ag : Nat) (s : State) : Answer := onLive (okTile t && decide (ag < 3)) s (fun s => apRow s t ag [1])

/-- ADDI (R154): an address-program instruction adds a signed immediate to a register. -/
def execAddi (t ag : Nat) (s : State) : Answer := onLive (okTile t && decide (ag < 3)) s (fun s => apRow s t ag [2])

/-- ADD (R154): an address-program instruction adds two registers. -/
def execAdd (t ag : Nat) (s : State) : Answer := onLive (okTile t && decide (ag < 3)) s (fun s => apRow s t ag [3])

/-- PUSH (R154): an address-program instruction pushes a register into the AG FIFO and advances it. -/
def execPush (t ag : Nat) (s : State) : Answer := onLive (okTile t && decide (ag < 3)) s (fun s => apRow s t ag [4])

/-- LOOP (R154): an address-program instruction runs the next len words count times. -/
def execLoop (t ag : Nat) (s : State) : Answer := onLive (okTile t && decide (ag < 3)) s (fun s => apRow s t ag [5])

/-- PROGRAM_HALT (R154): an address-program HALT, or a reserved or illegal instruction, stops the program. -/
def execProgramHalt (t ag : Nat) (s : State) : Answer :=
  onLive (okTile t && decide (ag < 3)) s (fun s => apRow s t ag [0, 6, 7, 8, 9, 10, 11, 12, 13, 14, 15])

end Sys2Proof.Machine
end

