-- ==== Sys2Proof/Machine/Reset.lean ====
section
/-! DEFINITION. The meanings of the rows of resets, wakes and rails (16_reset_boot_firmware.md,
17_power_clocks_shepherd.md). -/

namespace Sys2Proof.Machine

/-- WAKE (R521): WAKE# is asserted for 1 µs and an enabled wake from Doze or Standby begins. -/
def execWake (code : Boot) (s : State) : Answer := onBoard true s (fun s => wakePin s code)

/-- PERST_ASSERT (R490): PERST# is asserted while 12 V is present and a warm reset begins. -/
def execPerstAssert (s : State) : Answer := onBoard true s (fun s => perstAssert s)

/-- PERST_DEASSERT (R490): PERST# is deasserted; the warm reset completes its remaining steps, or a wake begins. -/
def execPerstDeassert (code : Boot) (s : State) : Answer := onBoard true s (fun s => perstDeassert s code)

/-- HOT_RESET (R490): A CXL hot reset is received and a warm reset begins. -/
def execHotReset (code : Boot) (s : State) : Answer := onBoard true s (fun s => hotReset s code)

/-- SHP_RST (R487): the SHP_RST# land is held low for 10 µs and a Shepherd reset begins. -/
def execShpRst (s : State) : Answer := onBoard true s (fun s => if s.shp.off then s else shpReset s)

/-- SHEPHERD_HEARTBEAT_FAIL (R487): shepherd's own firmware heartbeat fails and a Shepherd reset begins. -/
def execShepherdHeartbeatFail (s : State) : Answer := onBoard true s (fun s => if s.shp.off then s else shpReset s)

/-- STANDBY_RAIL_RISE (R546): P3V3SB rises into range and a Shepherd reset begins with AUTO set. -/
def execStandbyRailRise (code : Boot) (s : State) : Answer := onBoard true s (fun s => standbyRise s code)

/-- STANDBY_RAIL_LOSS (R546): P3V3SB stays below 2.9 V for 10 µs and the device goes Off. -/
def execStandbyRailLoss (s : State) : Answer := onBoard true s (fun s => standbyLoss s)

/-- P12V_LOSS (R522): P12V stays below 11.0 V for 10 µs and the device goes to Standby. -/
def execP12vLoss (s : State) : Answer := onBoard true s (fun s => p12vLoss s)

/-- P12V_IN_TOLERANCE (R522): P12V enters tolerance and, with AUTO set, a power-on reset begins. -/
def execP12vInTolerance (code : Boot) (s : State) : Answer := onBoard true s (fun s => p12vIn s code)

end Sys2Proof.Machine
end

