-- ==== Sys2Proof/Machine/Stream.lean ====
section
/-! DEFINITION. The meanings of the rows of issue blocks, ring fetches, retirement, and the control of queues and tiles
(05_command_streams.md). -/

namespace Sys2Proof.Machine

/-- ISSUE_BLOCK_START (R141): the first repeat of a CQ issue block issues once the drain cycle, the prefetch and the
release conditions are met. -/
def execIssueBlockStart (t : Nat) (s : State) : Answer := onLive (okTile t) s (fun s => startBlock s t)

/-- FETCH (R133): A ring fetch of eight slots completes and delivers commands, or faults the queue with FETCH_ERR; one
from a ring in host memory goes to the host port. -/
def execFetch (q : QId) (upset : List (Nat × Nat × Nat)) (s : State) : Answer :=
  onLive (okQueue q) s (fun s => fetch s q upset)

/-- COMMAND_RETIRE (R147): A command whose work is complete and whose predecessors have retired retires, signals and
raises its event. -/
def execCommandRetire (q : QId) (s : State) : Answer := onLive (okQueue q) s (fun s => retireRow s q)

/-- SEQ_FAULT (R166): A refused command is reported once every earlier command has retired, setting FAULT and raising the
event. -/
def execSeqFault (q : QId) (s : State) : Answer := onLive (okQueue q) s (fun s => seqFault s q)

/-- SEQ_BREAK (R159): A count or tag break holds the queue before a command once every earlier command has retired. -/
def execSeqBreak (q : QId) (s : State) : Answer := onLive (okQueue q) s (fun s => seqBreak s q)

/-- SEQ_QCTRL_EN (R167): A write of EN enables a queue or clears it, abandoning the queue before the next command. -/
def execSeqQctrlEn (c : Src) (q : QId) (v : Nat) (s : State) : Answer :=
  onLive (okQueue q) s (fun s => regCmd s c (qBase q) 4 v {})

/-- HALT (R167): A write of HALT holds the queue before its next command, or releases it. -/
def execHalt (c : Src) (q : QId) (v : Nat) (s : State) : Answer :=
  onLive (okQueue q) s (fun s => regCmd s c (qBase q) 4 (s.qctrlWord q - 2 * s.rd (qBase q) SEQ_QCTRL.HALT + 2 * (v % 2)) {})

/-- RESUME (R166): A write of RESUME resumes a queue held by a break or fault, retrying the held command. -/
def execResume (c : Src) (q : QId) (s : State) : Answer :=
  onLive (okQueue q) s (fun s => regCmd s c (qBase q) 4 (s.qctrlWord q + 4) {})

/-- SKIP (R166): A write of RESUME with SKIP retires the held command without work, signal or event. -/
def execSkip (c : Src) (q : QId) (s : State) : Answer :=
  onLive (okQueue q) s (fun s => regCmd s c (qBase q) 4 (s.qctrlWord q + 12) {})

/-- SEQ_QTAIL (R132): A write of TAIL publishes commands, or is discarded and faults the queue with OVERRUN. -/
def execSeqQtail (c : Src) (q : QId) (v : Nat) (s : State) : Answer :=
  onLive (okQueue q) s (fun s => regCmd s c (qBase q + 0x10) 4 v {})

/-- PREEMPT (R160): A write of SEQ_TCTRL.PREEMPT stops the tile at the next repeat boundary and starts its save. -/
def execPreempt (c : Src) (t : Nat) (s : State) : Answer :=
  onLive (okTile t) s (fun s => regCmd s c (tileBase t + 0x1800) 4 1 {})

/-- PREEMPT_SAVE_DONE (R160): the save record of a preempted tile is fully written; PREEMPT clears and SAVED is set. -/
def execPreemptSaveDone (t : Nat) (s : State) : Answer := onLive (okTile t) s (fun s => preemptSaveDone s t)

/-- TILE_RESTORE (R164): A write of SEQ_TCTRL.RESTORE reads and checks a save record into a tile. -/
def execTileRestore (c : Src) (t : Nat) (s : State) : Answer :=
  onLive (okTile t) s (fun s => regCmd s c (tileBase t + 0x1800) 4 2 {})

/-- TILE_RESTORE_DONE (R164): A restore completes and CQ issues the interrupted command's remaining repeats as a new
block. -/
def execTileRestoreDone (t : Nat) (s : State) : Answer := onLive (okTile t) s (fun s => tileRestoreDone s t)

/-- PACK_PREEMPT (R165): A write of SEQ_PCTRL.PREEMPT stops GQ and PMQ once their commands in progress retire. -/
def execPackPreempt (c : Src) (p : Nat) (s : State) : Answer :=
  onLive (okPack p) s (fun s => regCmd s c (packBase p + 0x800) 4 1 {})

/-- PACK_RESUME (R165): A write of SEQ_PCTRL.RESUME resumes preempted GQ and PMQ at their HEAD. -/
def execPackResume (c : Src) (p : Nat) (s : State) : Answer :=
  onLive (okPack p) s (fun s => regCmd s c (packBase p + 0x800) 4 2 {})

/-- AG_FIFO (R152): A register write pushes one repeat base into an AG FIFO, or is discarded when it is full. -/
def execAgFifo (c : Src) (t ag v : Nat) (s : State) : Answer :=
  onLive (okTile t && decide (ag < 3)) s (fun s => regCmd s c (agBase t ag + 0x50) 8 v {})

/-- TILE_CYCLES_WRAP (R70): TILE_CYCLES.COUNT wraps from 2^48 − 1 to 0 after about 44.7 hours of clocked time and sets
WRAP. -/
def execTileCyclesWrap (t : Nat) (s : State) : Answer := onLive (okTile t) s (fun s => cyclesWrap s t)

end Sys2Proof.Machine
end

