-- ==== Sys2Proof/Machine/SyncRows.lean ====
section
/-! DEFINITION. The meanings of the rows of sync counters, Leashes and the Howl (07_synchronization.md). -/

namespace Sys2Proof.Machine

/-- COUNTER_ADD (R222): an add reaches a sync counter and is applied with saturation, then the registered waits are
examined. -/
def execCounterAdd (p idx n : Nat) (s : State) : Answer :=
  onLive (okPack p) s (fun s => if (s.packPart p).isSome ∧ s.inRange p idx then ctrAdd s p idx ctrMesh (n % 2 ^ 32) else s)

/-- COUNTER_SET (R222): A store to VALUE sets a sync counter, then the registered waits are examined. -/
def execCounterSet (p idx n : Nat) (s : State) : Answer :=
  onLive (okPack p) s (fun s => if (s.packPart p).isSome ∧ s.inRange p idx then ctrSet s p idx (n % 2 ^ 32) else s)

/-- LEASH_FIRE (R238): A queue's Leash reaches its limit, sets FIRED, raises SYNC_LEASH, may stop the partition and
starts a Howl. -/
def execLeashFire (q : QId) (s : State) : Answer := onLive (okQueue q) s (fun s => leashCheck s q)

/-- HOWL (R249): A write of SYNC_CTRL.HOWL requests a Howl of the partition. -/
def execHowl (c : Src) (p : Nat) (s : State) : Answer :=
  onLive (okPack p) s (fun s => regCmd s c (syncBase p + 8) 4 (s.rd (syncBase p) SYNC_CTRL.OVF_EVT + 2) {})

/-- HOWL_DONE (R242): the writer finishes a Howl, writes its header, increments SYNC_HOWLCNT and raises SYNC_HOWL. -/
def execHowlDone (k : Nat) (s : State) : Answer := onLive (okPart k) s (fun s => howlDone s k)

end Sys2Proof.Machine
end

