-- ==== Sys2Proof/Machine/TimeRows.lean ====
section
/-! DEFINITION. The meanings of the rows of fabric time (R419 to R421). -/

namespace Sys2Proof.Machine

/-- TIME_EXCHANGE (R420): every 10 µs an active link sends TIME packets in both directions. -/
def execTimeExchange (n : Nat) (s : State) : Answer :=
  onLive (okPort n) s (fun s => if s.lkState n = lkACTIVE then timeExchange s n else s)

/-- TIME (R420): A TIME packet arrives, leaves the port's queue (R322), and the link delay and offset from the parent are
updated. -/
def execTime (n t1 t2 t3 t4 : Nat) (s : State) : Answer :=
  onLive (okPort n) s (fun s => recvTime (takeLocalTyp s n tTIME) n t1 t2 t3 t4)

/-- LOCKED (R421): the offset stays below 2 ns for 1 ms and the device becomes LOCKED. -/
def execLocked (s : State) : Answer := onLive true s (fun s => timeLocked s)

/-- RELOCK (R421): A write of RELOCK permits one forward step of the time counter. -/
def execRelock (c : Src) (s : State) : Answer := onLive true s (fun s => regCmd s c (trcBase + 8) 4 (s.tctrlWord + 32) {})

/-- TRC_TSET (R421): A write of TRC_TSET sets the master's time before its first lock. -/
def execTrcTset (c : Src) (v : Nat) (s : State) : Answer := onLive true s (fun s => regCmd s c (trcBase + 0x10) 8 v {})

end Sys2Proof.Machine
end

