-- ==== Sys2Proof/Machine/Dispatch.lean ====
section
/-! DEFINITION. The meaning of every command, arm by arm. -/

namespace Sys2Proof.Machine

def exec (i : Instr) (s : State) : Host.Outcome State Fault Refusal :=
  match i with
  | .nop q => Sys2Proof.Machine.execNop q s
  | .mma t n => Sys2Proof.Machine.execMma t n s
  | .mmaLb t n => Sys2Proof.Machine.execMmaLb t n s
  | .vop t n => Sys2Proof.Machine.execVop t n s
  | .vtr t n => Sys2Proof.Machine.execVtr t n s
  | .vcvt t n => Sys2Proof.Machine.execVcvt t n s
  | .vres t n => Sys2Proof.Machine.execVres t n s
  | .agld t n => Sys2Proof.Machine.execAgld t n s
  | .move q => Sys2Proof.Machine.execMove q s
  | .rcopy q => Sys2Proof.Machine.execRcopy q s
  | .coll q => Sys2Proof.Machine.execColl q s
  | .signal q => Sys2Proof.Machine.execSignal q s
  | .wait q => Sys2Proof.Machine.execWait q s
  | .skipIf q => Sys2Proof.Machine.execSkipIf q s
  | .overlay q => Sys2Proof.Machine.execOverlay q s
  | .phase q => Sys2Proof.Machine.execPhase q s
  | .mark q => Sys2Proof.Machine.execMark q s
  | .save t => Sys2Proof.Machine.execSave t s
  | .restore t => Sys2Proof.Machine.execRestore t s
  | .scaledReplay t => Sys2Proof.Machine.execScaledReplay t s
  | .movi t ag => Sys2Proof.Machine.execMovi t ag s
  | .addi t ag => Sys2Proof.Machine.execAddi t ag s
  | .add t ag => Sys2Proof.Machine.execAdd t ag s
  | .push t ag => Sys2Proof.Machine.execPush t ag s
  | .loop t ag => Sys2Proof.Machine.execLoop t ag s
  | .programHalt t ag => Sys2Proof.Machine.execProgramHalt t ag s
  | .issueBlockStart t => Sys2Proof.Machine.execIssueBlockStart t s
  | .fetch q upset => Sys2Proof.Machine.execFetch q upset s
  | .commandRetire q => Sys2Proof.Machine.execCommandRetire q s
  | .seqFault q => Sys2Proof.Machine.execSeqFault q s
  | .seqBreak q => Sys2Proof.Machine.execSeqBreak q s
  | .seqQctrlEn c q v => Sys2Proof.Machine.execSeqQctrlEn c q v s
  | .halt c q v => Sys2Proof.Machine.execHalt c q v s
  | .resume c q => Sys2Proof.Machine.execResume c q s
  | .skip c q => Sys2Proof.Machine.execSkip c q s
  | .seqQtail c q v => Sys2Proof.Machine.execSeqQtail c q v s
  | .preempt c t => Sys2Proof.Machine.execPreempt c t s
  | .preemptSaveDone t => Sys2Proof.Machine.execPreemptSaveDone t s
  | .tileRestore c t => Sys2Proof.Machine.execTileRestore c t s
  | .tileRestoreDone t => Sys2Proof.Machine.execTileRestoreDone t s
  | .packPreempt c p => Sys2Proof.Machine.execPackPreempt c p s
  | .packResume c p => Sys2Proof.Machine.execPackResume c p s
  | .agFifo c t ag v => Sys2Proof.Machine.execAgFifo c t ag v s
  | .counterAdd p idx n => Sys2Proof.Machine.execCounterAdd p idx n s
  | .counterSet p idx n => Sys2Proof.Machine.execCounterSet p idx n s
  | .leashFire q => Sys2Proof.Machine.execLeashFire q s
  | .howl c p => Sys2Proof.Machine.execHowl c p s
  | .howlDone k => Sys2Proof.Machine.execHowlDone k s
  | .load c a n => Sys2Proof.Machine.execLoad c a n s
  | .store c a bytes => Sys2Proof.Machine.execStore c a bytes s
  | .regWrite c a size v => Sys2Proof.Machine.execRegWrite c a size v s
  | .regReadClear c a size => Sys2Proof.Machine.execRegReadClear c a size s
  | .hbmRead x upset => Sys2Proof.Machine.execHbmRead x upset s
  | .hbmWrite x bytes => Sys2Proof.Machine.execHbmWrite x bytes s
  | .scrubRead h upset => Sys2Proof.Machine.execScrubRead h upset s
  | .hbmcScrubNow c h => Sys2Proof.Machine.execHbmcScrubNow c h s
  | .remapReq c h pc pin => Sys2Proof.Machine.execRemapReq c h pc pin s
  | .remapPassStep h pc => Sys2Proof.Machine.execRemapPassStep h pc s
  | .refresh h x => Sys2Proof.Machine.execRefresh h x s
  | .zeroFillDone => Sys2Proof.Machine.execZeroFillDone s
  | .flit n f => Sys2Proof.Machine.execFlit n f s
  | .frame n slot ok => Sys2Proof.Machine.execFrame n slot ok s
  | .pad n slot => Sys2Proof.Machine.execPad n slot s
  | .ackTimeout n => Sys2Proof.Machine.execAckTimeout n s
  | .noSignal n => Sys2Proof.Machine.execNoSignal n s
  | .laneBad n lane => Sys2Proof.Machine.execLaneBad n lane s
  | .degradeNotice n mask => Sys2Proof.Machine.execDegradeNotice n mask s
  | .restorePossible n lanes => Sys2Proof.Machine.execRestorePossible n lanes s
  | .restoreNotice n mask => Sys2Proof.Machine.execRestoreNotice n mask s
  | .signalDetect n => Sys2Proof.Machine.execSignalDetect n s
  | .phyTrainDone n hops => Sys2Proof.Machine.execPhyTrainDone n hops s
  | .alignDone n good tx => Sys2Proof.Machine.execAlignDone n good tx s
  | .identityRecord n bytes => Sys2Proof.Machine.execIdentityRecord n bytes s
  | .authDone n ok => Sys2Proof.Machine.execAuthDone n ok s
  | .confirmDone n => Sys2Proof.Machine.execConfirmDone n s
  | .trainTimeout n => Sys2Proof.Machine.execTrainTimeout n s
  | .backoffExpiry n => Sys2Proof.Machine.execBackoffExpiry n s
  | .active10s n => Sys2Proof.Machine.execActive10s n s
  | .heldSignalReturn n ms => Sys2Proof.Machine.execHeldSignalReturn n ms s
  | .retrain c n => Sys2Proof.Machine.execRetrain c n s
  | .disable c n v => Sys2Proof.Machine.execDisable c n v s
  | .rekeyReq c n => Sys2Proof.Machine.execRekeyReq c n s
  | .rekeyThreshold n => Sys2Proof.Machine.execRekeyThreshold n s
  | .keyx n p => Sys2Proof.Machine.execKeyx n p s
  | .rekeyDone n => Sys2Proof.Machine.execRekeyDone n s
  | .frameCounterLimit n slot => Sys2Proof.Machine.execFrameCounterLimit n slot s
  | .portsReady => Sys2Proof.Machine.execPortsReady s
  | .headFlit port vc => Sys2Proof.Machine.execHeadFlit port vc s
  | .escWait port vc => Sys2Proof.Machine.execEscWait port vc s
  | .credit n p => Sys2Proof.Machine.execCredit n p s
  | .creditReturnDelay n vc => Sys2Proof.Machine.execCreditReturnDelay n vc s
  | .lstate n p => Sys2Proof.Machine.execLstate n p s
  | .notice n p => Sys2Proof.Machine.execNotice n p s
  | .noticeWait n => Sys2Proof.Machine.execNoticeWait n s
  | .rd p => Sys2Proof.Machine.execRd p s
  | .rdData p => Sys2Proof.Machine.execRdData p s
  | .wr p => Sys2Proof.Machine.execWr p s
  | .ack p => Sys2Proof.Machine.execAck p s
  | .sync p => Sys2Proof.Machine.execSync p s
  | .rdFwd p => Sys2Proof.Machine.execRdFwd p s
  | .fwdData p => Sys2Proof.Machine.execFwdData p s
  | .lost p => Sys2Proof.Machine.execLost p s
  | .xferTimeout id => Sys2Proof.Machine.execXferTimeout id s
  | .telemRq p => Sys2Proof.Machine.execTelemRq p s
  | .telemRp p => Sys2Proof.Machine.execTelemRp p s
  | .histSample => Sys2Proof.Machine.execHistSample s
  | .rteTsnap => Sys2Proof.Machine.execRteTsnap s
  | .timeExchange n => Sys2Proof.Machine.execTimeExchange n s
  | .time n t1 t2 t3 t4 => Sys2Proof.Machine.execTime n t1 t2 t3 t4 s
  | .locked => Sys2Proof.Machine.execLocked s
  | .relock c => Sys2Proof.Machine.execRelock c s
  | .trcTset c v => Sys2Proof.Machine.execTrcTset c v s
  | .retrieverStart p n => Sys2Proof.Machine.execRetrieverStart p n s
  | .contextOpen k => Sys2Proof.Machine.execContextOpen k s
  | .stageBegin k ctx => Sys2Proof.Machine.execStageBegin k ctx s
  | .cReq p => Sys2Proof.Machine.execCReq p s
  | .cReqRetry k ctx => Sys2Proof.Machine.execCReqRetry k ctx s
  | .cGrant p => Sys2Proof.Machine.execCGrant p s
  | .cData p => Sys2Proof.Machine.execCData p s
  | .cToken p => Sys2Proof.Machine.execCToken p s
  | .cCredit p => Sys2Proof.Machine.execCCredit p s
  | .cAbort p => Sys2Proof.Machine.execCAbort p s
  | .collCtrlAbort c p mask => Sys2Proof.Machine.execCollCtrlAbort c p mask s
  | .overlayLoad c k id => Sys2Proof.Machine.execOverlayLoad c k id s
  | .overlayDrop c k id => Sys2Proof.Machine.execOverlayDrop c k id s
  | .overlayArrival q => Sys2Proof.Machine.execOverlayArrival q s
  | .overlayReady q => Sys2Proof.Machine.execOverlayReady q s
  | .close c k => Sys2Proof.Machine.execClose c k s
  | .nfclr c k => Sys2Proof.Machine.execNfclr c k s
  | .getInfo => Sys2Proof.Machine.execGetInfo s
  | .getCert => Sys2Proof.Machine.execGetCert s
  | .getMeas => Sys2Proof.Machine.execGetMeas s
  | .enrollOpkey => Sys2Proof.Machine.execEnrollOpkey s
  | .revokeOpkey => Sys2Proof.Machine.execRevokeOpkey s
  | .loadBase => Sys2Proof.Machine.execLoadBase s
  | .partReq => Sys2Proof.Machine.execPartReq s
  | .debugChallenge => Sys2Proof.Machine.execDebugChallenge s
  | .debugUnlock => Sys2Proof.Machine.execDebugUnlock s
  | .fwBegin => Sys2Proof.Machine.execFwBegin s
  | .fwBlock ans => Sys2Proof.Machine.execFwBlock ans s
  | .fwVerify => Sys2Proof.Machine.execFwVerify s
  | .fwActivate ok1 ok2 => Sys2Proof.Machine.execFwActivate ok1 ok2 s
  | .fwAbort => Sys2Proof.Machine.execFwAbort s
  | .fwStatus => Sys2Proof.Machine.execFwStatus s
  | .knlDone => Sys2Proof.Machine.execKnlDone s
  | .doze c => Sys2Proof.Machine.execDoze c s
  | .standby c => Sys2Proof.Machine.execStandby c s
  | .powerCycle c code => Sys2Proof.Machine.execPowerCycle c code s
  | .shpReset c => Sys2Proof.Machine.execShpReset c s
  | .shpHbeat c v => Sys2Proof.Machine.execShpHbeat c v s
  | .deviceLeashKnl code => Sys2Proof.Machine.execDeviceLeashKnl code s
  | .deviceLeashHost => Sys2Proof.Machine.execDeviceLeashHost s
  | .hostcap c d v => Sys2Proof.Machine.execHostcap c d v s
  | .throttleRamp d => Sys2Proof.Machine.execThrottleRamp d s
  | .powerSample d watts => Sys2Proof.Machine.execPowerSample d watts s
  | .partitionIdle k => Sys2Proof.Machine.execPartitionIdle k s
  | .sensorSample sensor v code => Sys2Proof.Machine.execSensorSample sensor v code s
  | .shpScfg c sensor v => Sys2Proof.Machine.execShpScfg c sensor v s
  | .analogTrip => Sys2Proof.Machine.execAnalogTrip s
  | .pllLoss d code => Sys2Proof.Machine.execPllLoss d code s
  | .bridgeFail b ch => Sys2Proof.Machine.execBridgeFail b ch s
  | .wake code => Sys2Proof.Machine.execWake code s
  | .perstAssert => Sys2Proof.Machine.execPerstAssert s
  | .perstDeassert code => Sys2Proof.Machine.execPerstDeassert code s
  | .hotReset code => Sys2Proof.Machine.execHotReset code s
  | .shpRst => Sys2Proof.Machine.execShpRst s
  | .shepherdHeartbeatFail => Sys2Proof.Machine.execShepherdHeartbeatFail s
  | .standbyRailRise code => Sys2Proof.Machine.execStandbyRailRise code s
  | .standbyRailLoss => Sys2Proof.Machine.execStandbyRailLoss s
  | .p12vLoss => Sys2Proof.Machine.execP12vLoss s
  | .p12vInTolerance code => Sys2Proof.Machine.execP12vInTolerance code s
  | .cxlLinkUp rate width mode reason => Sys2Proof.Machine.execCxlLinkUp rate width mode reason s
  | .cxlLinkDown => Sys2Proof.Machine.execCxlLinkDown s
  | .configRequest n isWrite reg v ide => Sys2Proof.Machine.execConfigRequest n isWrite reg v ide s
  | .bar0Access n isWrite off size v ide => Sys2Proof.Machine.execBar0Access n isWrite off size v ide s
  | .bar2Access n isWrite off size bytes ide => Sys2Proof.Machine.execBar2Access n isWrite off size bytes ide s
  | .doorbell n isWrite off size v ide => Sys2Proof.Machine.execDoorbell n isWrite off size v ide s
  | .howlWindowWrite n isWrite x size ide => Sys2Proof.Machine.execHowlWindowWrite n isWrite x size ide s
  | .cxlMemRead n hpa len => Sys2Proof.Machine.execCxlMemRead n hpa len s
  | .cxlMemWrite n hpa bytes => Sys2Proof.Machine.execCxlMemWrite n hpa bytes s
  | .hdmCommit n dec base size ways gran skip => Sys2Proof.Machine.execHdmCommit n dec base size ways gran skip s
  | .snoop => Sys2Proof.Machine.execSnoop s
  | .functionLevelReset n => Sys2Proof.Machine.execFunctionLevelReset n s
  | .spdmRequest n bytes => Sys2Proof.Machine.execSpdmRequest n bytes s
  | .ideKm n link => Sys2Proof.Machine.execIdeKm n link s
  | .ideIntegrityFailure n => Sys2Proof.Machine.execIdeIntegrityFailure n s
  | .ideReq c n => Sys2Proof.Machine.execIdeReq c n s
  | .identify => Sys2Proof.Machine.execIdentify s
  | .getLdInfo => Sys2Proof.Machine.execGetLdInfo s
  | .getLdAllocations => Sys2Proof.Machine.execGetLdAllocations s
  | .setLdAllocations => Sys2Proof.Machine.execSetLdAllocations s
  | .hostRetrieverPiece => Sys2Proof.Machine.execHostRetrieverPiece s
  | .completionTimeout piece => Sys2Proof.Machine.execCompletionTimeout piece s
  | .msixUnmask n vec => Sys2Proof.Machine.execMsixUnmask n vec s
  | .telcmdGo c ep port vc bank => Sys2Proof.Machine.execTelcmdGo c ep port vc bank s
  | .telcmdTimeout => Sys2Proof.Machine.execTelcmdTimeout s
  | .hostCompletion piece ans => Sys2Proof.Machine.execHostCompletion piece ans s
  | .kennelHeartbeat => Sys2Proof.Machine.execKennelHeartbeat s
  | .flitTime n => Sys2Proof.Machine.execFlitTime n s
  | .receiverDeskew n => Sys2Proof.Machine.execReceiverDeskew n s
  | .tileCyclesWrap t => Sys2Proof.Machine.execTileCyclesWrap t s

end Sys2Proof.Machine
end

