-- ==== Sys2Proof/Safety.lean ====
section
/-! DEFINITION. The terms in which statements speak of runs: what every state of a run keeps, what one step never takes
back, and the conditions on a state under which commands have their ordinary effect. -/

namespace Sys2Proof.Machine

/-- What every state of a run keeps: memory stands in its one canonical form. -/
def State.sound (s : State) : Prop := Memory.wf s.mem = true

/-- What no step takes back (R440, R446, R502): the device's grade, stepping, unique ID and straps are those of its
manufacture, a written operator-key slot keeps its key, revoke fuses stay blown, and no security-version count falls. -/
def fusesKept (s t : State) : Prop :=
  t.ident.grade = s.ident.grade ∧ t.ident.stepping = s.ident.stepping ∧ t.ident.uid = s.ident.uid ∧
    t.ident.straps = s.ident.straps ∧
    (∀ slot m, tget s.ident.opKeys slot = some m → tget t.ident.opKeys slot = some m) ∧
    (∀ slot, bitAt s.ident.opRev slot = true → bitAt t.ident.opRev slot = true) ∧
    (∀ ty, tgetD s.ident.svn ty 0 ≤ tgetD t.ident.svn ty 0)

/-- A register write of `size` bytes at a local address passes the checks of R33, R435, R534 and R538. -/
abbrev State.accepts (s : State) (c : Src) (a size : Nat) : Prop := s.regStatus (askSrc c) a size true = 0

/-- A register read passes the checks of R33, R435, R534 and R538. -/
abbrev State.admits (s : State) (c : Src) (a size : Nat) : Prop := s.regStatus (askSrc c) a size false = 0

/-- Partition idle has gated no pack of the partition of a pack (R518). -/
abbrev State.awake (s : State) (p : Nat) : Prop :=
  (match s.packPart p with
   | some k => (s.partPacks k).any s.packGated
   | none => false) = false

/-- The command of an opcode that a queue may start now, with its number: at the head of an open issue block in CQ (R141),
ready at HEAD in the other queues (R146). -/
def State.mayStart (s : State) (q : QId) (op num w : Nat) : Prop :=
  match q with
  | .cq t => s.blockHead t op = some (num, w)
  | _ => s.readyNq q op = some (num, w)

/-- A command has started in a queue: HEAD has moved past it, and it stands as the queue's newest in its state of work. -/
def Started (s t : State) (q : QId) (num w : Nat) (st : Wk) : Prop :=
  t.qHead q = (s.qHead q + 1) % 2 ^ 32 ∧
    ∃ p, (t.queue q).prog = (s.queue q).prog ++ [p] ∧ p.num = num ∧ p.w = w ∧ p.st = st

/-- Two states agree on every register but those whose key (address × 64 + low bit) is listed. -/
def regsBut (s t : State) (keys : List Nat) : Prop := ∀ k, k ∉ keys → tget t.regs k = tget s.regs k

/-- Two states agree on every byte of memory outside a range. -/
def memBut (s t : State) (a n : Nat) : Prop := ∀ x, x < a ∨ a + n ≤ x → mget t.mem x = mget s.mem x

/-- The keys of the registers that an event or an MSI-X message may write: those of the CXLP_ and TRC_ blocks (R479, R537,
R541). -/
def evRegKey (k : Nat) : Prop :=
  (0xC102400000 * 64 ≤ k ∧ k < 0xC102410000 * 64) ∨ (0xC102700000 * 64 ≤ k ∧ k < 0xC102709000 * 64)

/-- Two states agree on every register but those listed and those that an event may write. -/
def regsButEv (s t : State) (keys : List Nat) : Prop := ∀ k, k ∉ keys → ¬ evRegKey k → tget t.regs k = tget s.regs k

/-- Where the next event record of partition k goes in its ring (R417, R537). -/
def State.evAt (s : State) (k : Nat) : Nat :=
  s.rd (trcPBase k) TRC_EBASE.BASE * 4096 +
    s.rd (trcPBase k) TRC_EWR.COUNT % 2 ^ ringLog (s.rd (trcPBase k) TRC_ECFG.LOG2) 24

/-- Where the next record of the device event buffer goes (R541). -/
def State.devAt (s : State) : Nat := devEventBase + s.rd trcBase TRC_DEVWR.COUNT % 256 * 64

/-- Two states agree on every byte of memory outside the places of one event record of partition `part`. -/
def memButEv (s t : State) (part : Option Nat) : Prop :=
  ∀ x, (∀ k, part = some k → x < s.evAt k ∨ s.evAt k + 64 ≤ x) → (x < s.devAt ∨ s.devAt + 64 ≤ x) →
    mget t.mem x = mget s.mem x

/-- A link has failed and waits in BACKOFF (R311): its reason shows, it waits as long as its backoff said, and the next
backoff doubles up to 1 s. -/
def LinkFailed (s u : State) (n reason : Nat) : Prop :=
  u.lkState n = lkBACKOFF ∧ u.rd (lnkBase n) LNK_STAT.REASON = reason ∧ (u.link n).wait = (s.link n).backoff ∧
    (u.link n).backoff = min 1000 (2 * (s.link n).backoff) ∧ (u.link n).entered = s.clock ∧ (u.link n).retry = []

/-- A step that reaches no further than links, the router, registers, fabric time's state and event records. -/
def linkOnly (s u : State) : Prop :=
  u = { s with regs := u.regs, links := u.links, rte := u.rte, tsync := u.tsync, mem := u.mem, herr := u.herr,
               msixPend := u.msixPend, out := u.out }

end Sys2Proof.Machine
end

