-- ==== Sys2Proof/Certificates/Slice0/Obligations.lean ====
section
/-! DEFINITION. The statements about the model that the provers prove: one proposition each, with the rule it comes from. -/

open Sys2Proof Sys2Proof.Machine

/-- A step of a device with a command at the front of its queue is that command's exec on the state with the rest of
the queue. (95_what_each_step_holds.md) -/
def Obligations.StepRunsFront : Prop :=
  ∀ (c : Instr) (rest : List Instr) (s : State), s.pending = c :: rest → step s = exec c { s with pending := rest }

/-- With an empty queue a step answers the state one NCLK later (the model's choice, assumption 3): the clock has
moved on by three units of 1/7 ns, and a device whose compute dies are off changes nothing else. (R28, R419) -/
def Obligations.StepTicks : Prop :=
  ∀ s : State, s.pending = [] →
    ∃ t, step s = .next t ∧ t.clock = s.clock + 3 ∧ (s.live = false → t = { s with clock := s.clock + 3 })

/-- When MMA, MMA_LB, VOP, VTR, VCVT, VRES or AGLD stands at the head of the open issue block of a CQ, does work and
has at least two repeats, its row issues the first repeat: HEAD moves past the command, SEQ_QSTAT.TAG shows its tag,
the repeat stands in the tile's pipeline at the cycle of the queue's bound, the next repeat is bound GAP cycles later,
and nothing but the tile, the queues and the registers changes. (R138, R141, R147, R59, R177, R181, R186, R189, R193,
R197, R199) -/
def Obligations.WorkRepeatIssues : Prop :=
  ∀ (c : Nat → Nat → Instr) (op : Nat),
    (c, op) ∈ [(Instr.mma, opMMA), (Instr.mmaLb, opMMALB), (Instr.vop, opVOP), (Instr.vtr, opVTR), (Instr.vcvt, opVCVT),
      (Instr.vres, opVRES), (Instr.agld, opAGLD)] →
    ∀ (s : State) (t num w : Nat), s.live = true → t < 144 → (s.queue (.cq t)).cur = none →
      s.blockHead t op = some (num, w) → (s.tile t).cyc = (s.queue (.cq t)).sNext → s.noWork t w = false →
      2 ≤ cwREPEAT w →
      ∃ u, exec (c t 1) s = .next u ∧ Started s u (.cq t) num w .work ∧
        u.rd (qBase (.cq t)) SEQ_QSTAT.TAG = cwTAG w % 2 ^ 16 ∧
        (u.queue (.cq t)).sNext = (s.queue (.cq t)).sNext + gapOf w ∧
        (u.queue (.cq t)).cur.map (fun x => (x.w, x.num, x.rep)) = some (w, num, 1) ∧
        (∃ r ∈ (u.tile t).reps, r.s = (s.queue (.cq t)).sNext ∧ r.w = w ∧ r.num = num ∧ r.r = 0 ∧ r.first = true) ∧
        u = { s with regs := u.regs, queues := u.queues, tiles := u.tiles }

/-- When a work command of CQ without scaled replay has one repeat and does work, its row issues that repeat: the
command's work is complete, it retires in the cycle of its last access or later, the next command is bound NGAP cycles
later, and the queue's drain cycle covers its last access. In a pipeline cycle of a tile in which no repeat issues or
forms its bases, no address program runs and one item is due: a row group that enters the array, of the pass that
began last, becomes the block sums of its rows with the active weights of each column, for the chunk write 12 cycles
later, or on the integer path the integer sums, for the total write 16 cycles later; a chunk write adds each block sum
to its entry's chunk, rounded to nearest even, and a chunk that is full or at the end under FC closes: its value and
ordinal go to the total write 4 cycles later; the total write adds each closed value to its entry's total in the
command's mode, and the integer one saturates, both after a CLR has cleared what it clears; no other entry changes. A
vector whose stream holds the lanes becomes the results of its command, for emission in the cycle of R59. Each counts
its census for the command. Which cycle takes the CLR and the exponent is the model's choice (assumption 120), and so
are the point of the census and the largest exponent of a scaled widening (assumption 121). (R138, R141, R147, R177,
R186, R199, R56, R59, R102, R106, R193, R44) -/
def Obligations.WorkLastRepeat : Prop :=
  (∀ (c : Nat → Nat → Instr) (op : Nat),
    (c, op) ∈ [(Instr.mma, opMMA), (Instr.mmaLb, opMMALB), (Instr.vop, opVOP), (Instr.vtr, opVTR), (Instr.vcvt, opVCVT),
      (Instr.vres, opVRES), (Instr.agld, opAGLD)] →
    ∀ (s : State) (t num w : Nat), s.live = true → t < 144 → (s.queue (.cq t)).cur = none →
      s.blockHead t op = some (num, w) → (s.tile t).cyc = (s.queue (.cq t)).sNext → s.noWork t w = false →
      cwREPEAT w = 1 → isSrp w = false → (∀ p ∈ (s.queue (.cq t)).prog, p.num ≠ num) →
      let b := (s.queue (.cq t)).sNext
      ∃ u, exec (c t 1) s = .next u ∧ Started s u (.cq t) num w .done ∧ (u.queue (.cq t)).cur = none ∧
        (∃ p ∈ (u.queue (.cq t)).prog, p.num = num ∧ p.due = drainOf w b b false) ∧
        (u.queue (.cq t)).sNext = b + ngapOf w ∧
        (u.queue (.cq t)).drain = max (s.queue (.cq t)).drain (drainOf w b b false) ∧
        u = { s with regs := u.regs, queues := u.queues, tiles := u.tiles }) ∧
  (∀ (s : State) (t : Nat) (f : Flight) (rp : Rep), t < 144 →
    let c := (s.tile t).cyc
    let w := rp.w
    (s.tile t).reps.find? (fun r => r.s == f.s) = some rp → (∀ r ∈ (s.tile t).reps, r.s + 1 < c) →
    (∀ n, n < 3 → s.bit (apBase t n) SEQ_APSTAT.RUN = false ∧ (s.agUnit t n).starts = []) →
    (s.tile t).flight.filter (fun x => x.due == c) = [f] →
    let u := tileCycle s t
    let ti := beginStreams (s.tile t) c
    let bank := mmaBANK w
    let clr := rp.first && mmaCLR w == 1
    let cell := fun (i n : Nat) => (f.data.getD i []).getD n 0
    let ent := fun (i n : Nat) => 96 * (rowsPerGroup w * f.g + i) + n
    let here := fun (i n : Nat) => i < f.data.length ∧ n < (f.data.getD i []).length
    let old := fun (e : Nat) => Tile_entry (s.tile t) bank e
    let new := fun (e : Nat) => Tile_entry (u.tile t) bank e
    let counts := fun (x : Census) => tgetD (u.tile t).cen rp.num {} = cenAdd (tgetD (s.tile t).cen rp.num {}) x
    let each := fun (g : Nat → Nat → Census) => cenSum ((List.range f.data.length).flatMap (fun i =>
      (List.range (f.data.getD i []).length).map (g i)))
    let small := (∀ r ∈ f.data, r.length ≤ 96) ∧ rowsPerGroup w * f.g + f.data.length ≤ 128
    let rest := ∀ b e, b < 4 → e < 12288 → (b ≠ bank ∨ ∀ i n, here i n → e ≠ ent i n) →
      Tile_entry (u.tile t) b e = Tile_entry (s.tile t) b e
    (f.op = .enterA → isMatrix w = true → ti.pass = rp.s → f.data ≠ [] →
      let fa := matFA w
      let row := fun (i : Nat) => elems fa (f.data.getD i [])
      let wts := fun (n : Nat) => colWeights ti (blockElems fa) n
      let last := f.data.length - 1
      (isIntPath w = true → ∃ x ∈ (u.tile t).flight, x.op = .intTotal ∧ x.due = c + 16 ∧ x.s = f.s ∧ x.g = f.g ∧
        x.data.length = last ∧ ∀ i n, i < last → n < 96 → (x.data.getD i []).getD n 0 = toBits 64 (intSum (row i) (wts n))) ∧
      (isIntPath w = false →
        let d := if mmaCLR w = 1 then rp.d else s.rd (accBase t) (ACC_BEXP.D bank)
        let sa := fun (i : Nat) => (f.data.getLastD [] ++ List.replicate last 0x7F).getD i 0
        let sb := fun (n : Nat) => if mmaSCB w = 1 then tgetD ti.actScale n 0x7F else 0x7F
        let sum := fun (i n : Nat) => blockSum (row i) (wts n) (sa i) (sb n) d
        (∃ x ∈ (u.tile t).flight, x.op = .chunk ∧ x.due = c + 12 ∧ x.s = f.s ∧ x.g = f.g ∧ x.data.length = last ∧
          ∀ i n, i < last → n < 96 →
            (x.data.getD i []).getD n 0 = (sum i n).1 + 2 ^ 32 * ((sum i n).2.nan + 2 * (sum i n).2.inf)) ∧
        counts (cenSum ((List.range last).map (fun i => cenSum ((List.range 96).map (fun n => (sum i n).2))))))) ∧
    (f.op = .chunk → small →
      let bef := fun (e : Nat) => if clr then { total := (old e).total } else old e
      let add := fun (i n : Nat) => accAdd .rne (bef (ent i n)).chunk.toNat (cell i n % 2 ^ 32)
      let full := fun (e : Nat) => decide (matC w ≤ (bef e).pos.toNat + 1) || (rp.last && mmaFC w == 1)
      (∀ i n, here i n →
        let e := ent i n
        (new e).total = (old e).total ∧
        (new e).flags = (bef e).flags |||
          BitVec.ofNat 4 (Nat.lor (cell i n / 2 ^ 32) ((add i n).2.nan + 2 * (add i n).2.inf)) ∧
        (full e = true → (new e).chunk = 0 ∧ (new e).pos = 0 ∧ (new e).ord = (bef e).ord + 1) ∧
        (full e = false → (new e).chunk = BitVec.ofNat 32 (add i n).1 ∧ (new e).pos = (bef e).pos + 1 ∧
          (new e).ord = (bef e).ord)) ∧
      (∃ x ∈ (u.tile t).flight, x.op = .total ∧ x.due = c + 4 ∧ x.s = f.s ∧ x.g = f.g ∧
        ∀ i n, here i n →
          (full (ent i n) = true → (ent i n, (add i n).1, (bef (ent i n)).ord.toNat) ∈
            (x.data.getD 0 []).zip ((x.data.getD 1 []).zip (x.data.getD 2 []))) ∧
          (full (ent i n) = false → ent i n ∉ x.data.getD 0 [])) ∧
      counts (each (fun i n => (add i n).2)) ∧ rest) ∧
    (f.op = .total →
      let cl := (f.data.getD 0 []).zip ((f.data.getD 1 []).zip (f.data.getD 2 []))
      let lo := 96 * rowsPerGroup w * f.g
      (cl.map Prod.fst).Nodup → (∀ x ∈ cl, x.1 < 12288) → lo + 96 * rowsPerGroup w ≤ 12288 →
      let bef := fun (e : Nat) => if clr && decide (lo ≤ e) && decide (e < lo + 96 * rowsPerGroup w) then 0 else (old e).total
      let mode := fun (e o : Nat) =>
        if mmaTRM w = 1 then srMode (srbOf (mmaSRB w)) (gen (s.seedOf t) e (mmaSTREAM w) o 0) else .rne
      let add := fun (x : Nat × Nat × Nat) => accAdd (mode x.1 x.2.2) (bef x.1).toNat x.2.1
      (∀ x ∈ cl, new x.1 = { old x.1 with
        total := BitVec.ofNat 32 (add x).1
        flags := (old x.1).flags ||| BitVec.ofNat 4 ((add x).2.nan + 2 * (add x).2.inf) }) ∧
      (∀ e, e < 12288 → (∀ x ∈ cl, x.1 ≠ e) → new e = { old e with total := bef e }) ∧
      (∀ b e, b < 4 → b ≠ bank → e < 12288 → Tile_entry (u.tile t) b e = Tile_entry (s.tile t) b e) ∧
      counts (cenSum (cl.map (fun x => (add x).2)))) ∧
    (f.op = .intTotal → small →
      let bef := fun (e : Nat) => if clr then {} else old e
      let add := fun (i n : Nat) => intAdd (bef (ent i n)).total.toNat (sext 64 (cell i n))
      (∀ i n, here i n → new (ent i n) = { bef (ent i n) with
        total := BitVec.ofNat 32 (add i n).1
        flags := (bef (ent i n)).flags ||| BitVec.ofNat 4 (4 * (add i n).2.sat) }) ∧
      counts (each (fun i n => (add i n).2)) ∧ rest) ∧
    (f.op = .lanes → isVector w = true → ti.vu = rp.s →
      let a := f.data.getD 0 []
      let b := f.data.getD 1 []
      let d := if vcvtSRCA w = 1 then s.rd (accBase t) (ACC_BEXP.D (vcvtBNKA w)) else 0
      let r := fun (out : List (List Nat)) (cen : Census) =>
        (∃ x ∈ (u.tile t).flight, x.op = .emitV ∧ x.due = rp.s + 5 + vecL w + f.g ∧ x.s = f.s ∧ x.g = f.g ∧ x.data = out) ∧
          counts cen
      (cwOPCODE w = opVOP → r [(vopResult w f.data).1] (vopResult w f.data).2) ∧
      (cwOPCODE w = opVTR → r [(vtrResult w a).1] (vtrResult w a).2) ∧
      (cwOPCODE w = opVCVT →
        let v := vcvtResult w d (s.seedOf t) rp.r f.g a b
        r [v.1, v.2.1] v.2.2) ∧
      (cwOPCODE w = opVRES →
        let v := vresResult w (s.seedOf t) rp.r f.g a b
        r [v.1, v.2.1] v.2.2)))

/-- A NOP or PHASE that its queue may start begins with its work complete: HEAD moves past it, and outside the queues
and registers, and in CQ the address programs of the tile, nothing changes. So does a SKIP_IF with every earlier
command retired, and when it has a repeat and the counter's value meets the condition of its ZERO field the next NSKIP
commands are to be skipped, otherwise none. Once the switch has released its queue, an OVERLAY with a repeat, in a
tile of which no preemption is asked for, begins, its release ends, and its work is complete unless the queue stands
in the close barrier of its partition. (R146, R208, R209, R210, R211, R397, R404, R557) -/
def Obligations.ControlIssues : Prop :=
  ∀ (s : State) (q : QId) (num w : Nat), s.live = true → okQueue q = true →
    (∀ (c : QId → Instr) (op : Nat), (c, op) ∈ [(Instr.nop, opNOP), (Instr.phase, opPHASE)] → s.mayStart q op num w →
      ∃ u, exec (c q) s = .next u ∧ Started s u q num w .done ∧
        u = { s with regs := u.regs, queues := u.queues, tiles := u.tiles } ∧ ((∀ t, q ≠ .cq t) → u.tiles = s.tiles)) ∧
    (s.mayStart q opSKIPIF num w → (s.queue q).prog = [] → (s.queue q).skip = 0 →
      let v := (s.ctr (qPack q) (skipIfIDX w)).val
      let hit := if skipIfZERO w = 1 then v == 0 else v != 0
      ∃ u, exec (.skipIf q) s = .next u ∧ Started s u q num w .done ∧
        (u.queue q).skip = (if cwREPEAT w != 0 && hit then skipIfNSKIP w else 0) ∧
        u = { s with regs := u.regs, queues := u.queues, tiles := u.tiles }) ∧
    (∀ k, s.headCmd q = some (num, w) → s.mayStart q opOVERLAY num w → s.qPart q = some k → cwREPEAT w ≠ 0 →
      (s.queue q).cur = none →
      (s.queue q).released = true → (∀ t, q = .cq t → s.bit (tileBase t) SEQ_TCTRL.PREEMPT = false) →
      ∃ u, exec (.overlay q) s = .next u ∧
        Started s u q num w (if (s.part k).barrier.contains q then .work else .done) ∧
        (u.queue q).released = false ∧
        u = { s with regs := u.regs, queues := u.queues, tiles := u.tiles })

/-- A WAIT with a repeat at the head of its queue, with nothing holding the queue, no collective of it waiting for a
context and no wait of the queue yet, is registered at its counter with the fabric time; when the counter has reached
the threshold it is released in the same step and a consuming wait subtracts the threshold, and otherwise it takes its
place among the counter's waits, before those of later queues of the same NCLK, and the value stays. Only queues and
counters change. Of two consuming WAITs of one NCLK on a counter that holds enough for each but not for both, that of
the earlier queue of R224 is released and the other waits, also when the later queue's registered first. (R207, R231,
R232, R233) -/
def Obligations.WaitRegisters : Prop :=
  ∀ (s : State) (q : QId) (num w : Nat), s.live = true → okQueue q = true → s.headCmd q = some (num, w) →
    cwOPCODE w = opWAIT → cwREPEAT w ≠ 0 → s.held q = false → (s.queue q).skip = 0 → s.breakAt q w 0 = false →
    s.refuseCode q w = none → s.collWaits q = false → (s.queue q).cur = none → (s.queue q).wait = none →
    (s.queue q).isOpen = false →
    let p := qPack q
    let i := waitIDX w
    let thr := waitTHR w
    let cons := waitCONS w == 1 && thr != 0
    let hit := decide (thr ≤ (s.ctr p i).val)
    (q ∉ (s.ctr p i).waits → (s.ctrNow p i).rel = [] →
     ∃ u, exec (.wait q) s = .next u ∧
      (u.queue q).wait = some { idx := i, thr := thr, cons := cons, time := s.ns, at_ := s.nclk, left := cwREPEAT w - 1, released := hit } ∧
      (u.ctr p i).val = (if hit && cons then (s.ctr p i).val - thr else (s.ctr p i).val) ∧
      (hit = false → (u.ctr p i).waits = s.placeWait q s.nclk (s.ctr p i).waits) ∧
      u = { s with queues := u.queues, ctrs := u.ctrs }) ∧
    (∀ q2 num2 w2, okQueue q2 = true → qPack q2 = p → qRank q < qRank q2 → s.headCmd q2 = some (num2, w2) →
      cwOPCODE w2 = opWAIT → cwREPEAT w2 ≠ 0 → s.held q2 = false → (s.queue q2).skip = 0 → s.breakAt q2 w2 0 = false →
      s.refuseCode q2 w2 = none → s.collWaits q2 = false → (s.queue q2).cur = none → (s.queue q2).wait = none →
      (s.queue q2).isOpen = false → waitIDX w2 = i → waitCONS w = 1 → waitCONS w2 = 1 → (s.ctr p i).waits = [] →
      s.ctrNow p i = { at_ := s.nclk, val := (s.ctr p i).val } → thr ≤ (s.ctr p i).val → waitTHR w2 ≤ (s.ctr p i).val →
      (s.ctr p i).val < thr + waitTHR w2 →
      ∃ v u, exec (.wait q2) s = .next v ∧ exec (.wait q) v = .next u ∧ (v.queue q2).wait.map (·.released) = some true ∧
        (u.queue q).wait.map (·.released) = some true ∧ (u.queue q2).wait.map (·.released) = some false ∧
        (u.ctr p i).val = (s.ctr p i).val - thr ∧ (u.ctr p i).waits = [q2] ∧
        u = { s with queues := u.queues, ctrs := u.ctrs })

/-- A SIGNAL of one repeat that its queue may start once every earlier command has retired: of kind 0 to a pack of its
own device, with every bridge in service and no wait registered at the counter, it is then complete, and has added N
when the sum fits and no operation that R224 puts after it has reached the counter in the same NCLK, while a set of
that NCLK that R224 puts after its own add gives the counter its value; of kind 1 it asks the host port for an MSI-X
message of its vector, and of any other kind for the write of a word to host memory, and its work goes on until the
host answers. (R206, R222, R224) -/
def Obligations.SignalSends : Prop :=
  ∀ (s : State) (q : QId) (num w : Nat), s.live = true → okQueue q = true → s.mayStart q opSIGNAL num w →
    (s.queue q).prog = [] → cwREPEAT w = 1 →
    (signalKIND w = 0 → badDest (signalEP w) = false → signalEP w % 32 < 16 → signalEP w / 32 = s.coord → s.bridges = 0 →
      let p := signalEP w % 32
      let i := signalIDX w
      let rank := if p = qPack q then qRank q else ctrMesh
      let x := s.ctrNow p i
      (s.ctr p i).waits = [] →
      ∃ u, exec (.signal q) s = .next u ∧ Started s u q num w .done ∧
        (x.ops.any (fun o => decide (rank < o.1)) = false → (s.ctr p i).val + signalN w ≤ 0xFFFFFFFF →
          (u.ctr p i).val = (s.ctr p i).val + signalN w) ∧
        (∀ n, signalN w ≠ 0 → p = qPack q → x.ops = [(ctrMesh, true, n)] → x.rel = [] → x.val + signalN w ≤ 0xFFFFFFFF →
          (u.ctr p i).val = n % 2 ^ 32)) ∧
    (signalKIND w ≠ 0 → ∃ u a, exec (.signal q) s = .next u ∧ Started s u q num w .work ∧
      tget u.haccs s.haccNext = some a ∧ u.haccNext = s.haccNext + 1 ∧ a.ld = s.packLd (qPack q) ∧
      (signalKIND w = 1 → a.kind = .msix (signalVEC w)) ∧
      (signalKIND w ≠ 1 → a.kind = .word ∧ a.addr = signalHADDR w * 4 ∧ a.parts = [(0, leBytes 4 (signalN w))]))

/-- A MOVE of one repeat from one range of its tile's scratch to another, in a partition whose pack is awake with
every bridge in service, copies the source's bytes as they stood before, is then complete, and leaves every other byte
of memory and every register but those of its queue's HEAD and TAG as before, outside the effects of R424. One of one
repeat between the partition's scratch and another device of the board, to a range that can be reached so and with
KEYS, opens a transfer of its length and goes on. An RCOPY with repeats and a length is the newest of the commands
that wait for the Retriever it names, and goes on. (R35, R53, R201, R202, R203, R204, R318) -/
def Obligations.CopiesStart : Prop :=
  ∀ (s : State) (q : QId) (num w t k la lb : Nat), s.live = true → okQueue q = true →
    (∀ p ∈ (s.queue q).prog, p.num ≠ num) →
    let own := slotOf s.coord * 2 ^ 40
    let inTile := fun a => scratchBase t ≤ a ∧ a + moveLEN w ≤ scratchBase t + 0x400000
    (s.readyNq q opMOVE = some (num, w) → cwREPEAT w = 1 → 0 < moveLEN w → t < 144 → s.tilePresent t = true →
      s.packPart (packOf t) = some k → s.packPart (qPack q) = some k → s.bridges = 0 → s.awake (packOf t) →
      (q = .mq t → moveSRC w = own + la → moveDST w = own + lb → inTile la → inTile lb →
        ∃ u, exec (.move q) s = .next u ∧ Started s u q num w .done ∧
          (∀ i, i < moveLEN w → mget u.mem (lb + i) = mget s.mem (la + i)) ∧ memBut s u lb (moveLEN w) ∧
          regsBut s u [fkey (qBase q) SEQ_QHEAD.HEAD, fkey (qBase q) SEQ_QSTAT.TAG]) ∧
      (moveSRC w = own + la → inTile la → moveDST w / 2 ^ 40 ≠ slotOf s.coord → badBoard (moveDST w) = false →
        badRange (moveDST w % 2 ^ 40) (moveLEN w) = false → s.injectStatus (some k) (s.boardEp (moveDST w)) = 0 →
        ∃ u x, exec (.move q) s = .next u ∧ Started s u q num w .work ∧ tget u.xfers s.xferNext = some x ∧
          x.owner = .cmd q num 0 ∧ x.len = moveLEN w ∧ x.dst = moveDST w % 2 ^ 40 ∧ x.home = false ∧
          u.mem = s.mem ∧ u.xferNext = (s.xferNext + 1) % 2 ^ 32) ∧
      (moveDST w = own + lb → inTile lb → moveSRC w / 2 ^ 40 ≠ slotOf s.coord → badBoard (moveSRC w) = false →
        badRange (moveSRC w % 2 ^ 40) (moveLEN w) = false → s.injectStatus (some k) (s.boardEp (moveSRC w)) = 0 →
        ∃ u x, exec (.move q) s = .next u ∧ Started s u q num w .work ∧ tget u.xfers s.xferNext = some x ∧
          x.owner = .cmd q num 0 ∧ x.len = moveLEN w ∧ x.src = moveSRC w % 2 ^ 40 ∧ x.dst = lb ∧ x.home = true ∧
          u.mem = s.mem ∧ u.xferNext = (s.xferNext + 1) % 2 ^ 32)) ∧
    (s.readyNq q opRCOPY = some (num, w) → cwREPEAT w ≠ 0 → rcopyLEN32 w ≠ 0 →
      ∃ u, exec (.rcopy q) s = .next u ∧ Started s u q num w .work ∧
        (u.ret (qPack q) (rcopyRET w)).waiting = (s.ret (qPack q) (rcopyRET w)).waiting ++ [(q, num)] ∧
        u = { s with regs := u.regs, queues := u.queues, rets := u.rets })

/-- With every bridge in service, a MARK of one repeat in a queue of a partition whose trace ring has room in the
partition's memory and no watermark writes the 64-byte record of its class, tag, queue, fabric time, retired count,
phase and stage at the ring's write position, moves the position by 64, and is then complete. A write of CLOSE that
passes its checks counts a close and, for every phase entered or occupied, raises its instance number, clears its
totals, fingerprint, cycles and stop, and sets its start to the present time while queues occupy it; a phase neither
entered nor occupied keeps its record. A write of NFCLR that passes its checks clears the sticky flags. Both keep the
register's other fields. (R211, R417, R418, R404, R406, R407, R423) -/
def Obligations.MarksAndCloses : Prop :=
  (∀ (s : State) (q : QId) (num w k : Nat), s.live = true → okQueue q = true → s.mayStart q opMARK num w →
     s.qPart q = some k → cwREPEAT w = 1 → s.bridges = 0 →
     let b := trcPBase k
     let wr := s.rd b CEN_RWR.COUNT
     let size := 2 ^ ringLog (s.rd b CEN_RCFG.LOG2) 30
     let a := s.rd b CEN_RBASE.BASE * 4096 + wr % size
     s.rd b CEN_RCFG.WM = 0 → wr - s.rd b CEN_RRD.COUNT + 64 ≤ size → s.inPartHbm k a 64 = true →
     ∃ u, exec (.mark q) s = .next u ∧ Started s u q num w .done ∧
       u.rd b CEN_RWR.COUNT = (wr + 64) % 2 ^ CEN_RWR.COUNT.wid ∧
       u.mem = mwrite s.mem a (pad64 ([1, markCLASS w] ++ leBytes 2 (cwTAG w) ++ leBytes 4 (qWord q) ++ leBytes 8 s.ns ++
         leBytes 8 (s.rd (qBase q) SEQ_QRETIRED.COUNT) ++ [(s.queue q).phase, s.qStage q]))) ∧
  (∀ (s : State) (c : Src) (k : Nat), s.live = true → k < 8 → s.accepts c (cenBase k) 4 →
     let b := cenBase k
     let occ := fun ph => (s.partQueues k).any (fun q => (s.queue q).phase == ph)
     let keeps := fun (u : State) => ∀ f ∈ [CEN_PCTRL.CMODE, CEN_PCTRL.FPDETAIL, CEN_PCTRL.NFEN, CEN_PCTRL.NFPH, CEN_PCTRL.NFCTR],
       u.rd b f = s.rd b f
     (∃ u, exec (.close c k) s = .next u ∧ keeps u ∧
       u.rd b CEN_PSTAT.CLOSES = (s.rd b CEN_PSTAT.CLOSES + 1) % 2 ^ 32 ∧
       (∀ ph, ph < 64 → (s.phaseRec k ph).entered = true ∨ occ ph = true →
         u.phaseRec k ph = { inst := ((s.phaseRec k ph).inst + 1) % 2 ^ 32, started := occ ph } ∧
         u.rd b (CEN_PH_FP.A ph) = 0 ∧ u.rd b (CEN_PH_CYC.COUNT ph) = 0 ∧ u.rd b (CEN_PH_STOP.TIME ph) = 0 ∧
         u.rd b (CEN_PH_START.TIME ph) = (if occ ph then s.ns % 2 ^ 64 else 0)) ∧
       (∀ ph, ph < 64 → (s.phaseRec k ph).entered = false → occ ph = false → u.phaseRec k ph = s.phaseRec k ph)) ∧
     (∃ u, exec (.nfclr c k) s = .next u ∧ keeps u ∧ u.rd b CEN_PSTAT.NAN = 0 ∧ u.rd b CEN_PSTAT.INF = 0 ∧
       u = { s with regs := u.regs, out := s.out ++ [.compl 0 []] }))

/-- A SAVE with a repeat at the head of its block has its address programs start and writes the tile's save record at
its address and is complete when the write succeeds; a RESTORE reads a record, and when its format and CRC are right
the tile's accumulators are those of the record and it is complete. (R161, R212, R213, R214) -/
def Obligations.SaveRestore : Prop :=
  ∀ (s : State) (t num w : Nat), s.live = true → t < 144 → (s.tile t).cyc = (s.queue (.cq t)).sNext → cwREPEAT w ≠ 0 →
    (s.queue (.cq t)).prog = [] →
    let s1 := closeCmd (startPrograms
        (openCmd s t num w .work ((s.queue (.cq t)).sNext + (cwREPEAT w - 1) * gapOf w + 2316)) t w (s.queue (.cq t)).sNext) t
      ((s.queue (.cq t)).sNext + (cwREPEAT w - 1) * gapOf w + ngapOf w)
      ((s.queue (.cq t)).sNext + (cwREPEAT w - 1) * gapOf w + 2316)
    let p := packOf t
    (s.blockHead t opSAVE = some (num, w) →
      (memWrite s1 (.unit p) (saveADDR w) (saveRecord s1 t none {})).2 = 0 →
      ∃ u, exec (.save t) s = .next u ∧
        u.mem = (memWrite s1 (.unit p) (saveADDR w) (saveRecord s1 t none {})).1.mem ∧
        ((u.queue (.cq t)).prog.head?).map (fun x => (x.num, x.st)) = some (num, .done)) ∧
    (s.blockHead t opRESTORE = some (num, w) →
      (memRead s (.unit p) (saveADDR w) recordSize).2.1 = 0 →
      recordOk (memRead s (.unit p) (saveADDR w) recordSize).2.2 = true →
      ∃ u, exec (.restore t) s = .next u ∧
        (u.tile t).acc = banksOf 49152 0 ((memRead s (.unit p) (saveADDR w) recordSize).2.2.drop 0x1000) ∧
        ((u.queue (.cq t)).prog.head?).map (fun x => (x.num, x.st)) = some (num, .done))

/-- When a scaled replay of the command in CQ is due, its row restores the command's accumulator bank from the shadow
plane, leaves the other banks, and starts the command again from its first repeat, in the cycle 96 after the end of
the hold. A write of AG_FIFO that passes its checks appends the low 22 bits to a FIFO of fewer than 64 entries, and is
discarded with OVF set by a full one. At 2^48 cycles TILE_CYCLES (whose count is the model's choice, assumption 10)
goes on from 0 and sets WRAP, and before that its row does nothing (the model's choice, assumption 6). (R65, R66, R70,
R71, R152) -/
def Obligations.ReplayFifoCycles : Prop :=
  (∀ (s : State) (t : Nat) (r : Replay) (c : Cur), s.live = true → t < 144 → (s.tile t).replay = some r →
     (s.queue (.cq t)).cur = some c → (s.tile t).cyc = r.hold + 96 →
     ∃ u, exec (.scaledReplay t) s = .next u ∧ (u.tile t).replay = none ∧
       (u.queue (.cq t)).cur.map (fun x => (x.w, x.num, x.rep, x.run)) = some (c.w, c.num, 0, r.runs) ∧
       (u.queue (.cq t)).sNext = r.hold + 96 ∧
       (u.tile t).acc = (s.tile t).shadow.foldl (fun m e => tput m (accKey (mmaBANK c.w) e.1) {} e.2)
         ((s.tile t).acc.filter (fun e => e.1 / 12288 != mmaBANK c.w)) ∧
       u = { s with regs := u.regs, queues := u.queues, tiles := u.tiles }) ∧
  (∀ (s : State) (c : Src) (t n v : Nat), s.live = true → t < 144 → n < 3 → v < 2 ^ 64 →
     (s.accepts c (agBase t n + 0x50) 8 → s.awake (packOf t) →
       ∃ u, exec (.agFifo c t n v) s = .next u ∧
         ((s.agUnit t n).fifo.length + (s.agUnit t n).kept.length < 64 →
           u.agUnit t n = { s.agUnit t n with fifo := (s.agUnit t n).fifo ++ [v % 2 ^ 22] } ∧
           u = { s with tiles := u.tiles, out := s.out ++ [.compl 0 []] }) ∧
         (64 ≤ (s.agUnit t n).fifo.length + (s.agUnit t n).kept.length →
           u.rd (agBase t n) AG_FIFO_STAT.OVF = 1 ∧ regsBut s u [fkey (agBase t n) AG_FIFO_STAT.OVF] ∧
           u = { s with regs := u.regs, out := s.out ++ [.compl 0 []] })) ∧
     (2 ^ 48 ≤ s.tileCycles t →
       ∃ u, exec (.tileCyclesWrap t) s = .next u ∧ u.tileCycles t = s.tileCycles t - 2 ^ 48 ∧
         u.rd (tileBase t) TILE_CYCLES.WRAP = 1 ∧ regsBut s u [fkey (tileBase t) TILE_CYCLES.WRAP] ∧
         u = { s with regs := u.regs, tiles := u.tiles }) ∧
     (s.tileCycles t < 2 ^ 48 → exec (.tileCyclesWrap t) s = .next s))

/-- When the next instruction of the address program of one address generator of an otherwise idle tile is due, its
row executes it: MOVI, ADDI and ADD give the destination register its new value modulo 2^22, PUSH pushes a register
into a FIFO that is not full, leaves a full one as it is with OVF set, and advances the register in either case, and
LOOP opens a loop at the next word or with count 0 skips its body. Each then goes on at the word that R154 says: the
next one while it lies in the body of the innermost open loop or no loop is open, the first of that body again while
passes are left, and past the body once the last pass is done; past word 31 the program stops. HALT, a reserved
instruction, a LOOP of length 0 and one met with four loops open (of count 0 too: the model's choice, assumption 149)
stop the program at their word, all but HALT with ERR. (R153, R154) -/
def Obligations.AddressProgram : Prop :=
  ∀ (s : State) (t n : Nat), s.live = true → t < 144 → n < 3 → (s.tile t).reps = [] → (s.tile t).flight = [] →
    (s.tile t).replay = none → (s.tile t).preempting = false → (s.queue (.cq t)).isOpen = false →
    (∀ m, m < 3 → m ≠ n → s.bit (apBase t m) SEQ_APSTAT.RUN = false ∧ (s.agUnit t m).starts = []) →
    (s.agUnit t n).starts = [] → (s.agUnit t n).waitBlk = false →
    s.bit (apBase t n) SEQ_APSTAT.RUN = true → (s.agUnit t n).apNext + 1 = (s.tile t).cyc →
    let pc := s.rd (apBase t n) SEQ_APSTAT.PC
    let w := s.apWord t n pc
    let d := bitsAt w 27 25
    let a := bitsAt w 24 22
    let len := bitsAt w 27 24
    let cnt := bitsAt w 15 0
    let st := (s.agUnit t n).stack
    let held := (s.agUnit t n).fifo.length + (s.agUnit t n).kept.length
    let at_ := fun (u : State) (st1 : List (Nat × Nat × Nat)) (p : Nat) => u.rd (apBase t n) SEQ_APSTAT.PC = p ∧
      u.bit (apBase t n) SEQ_APSTAT.RUN = true ∧ (u.agUnit t n).stack = st1
    let within := fun (st1 : List (Nat × Nat × Nat)) (p : Nat) => ∀ f l c r, st1 = (f, l, c) :: r → p < f + l
    let go := fun (u : State) (st1 : List (Nat × Nat × Nat)) (p : Nat) =>
      u = { s with regs := u.regs, tiles := u.tiles } ∧
      (within st1 p → p < 32 → at_ u st1 p) ∧
      (within st1 p → 32 ≤ p → u.bit (apBase t n) SEQ_APSTAT.RUN = false ∧ u.rd (apBase t n) SEQ_APSTAT.PC = 0) ∧
      (∀ f l c r, st1 = (f, l, c) :: r → f + l ≤ p →
        (1 < c → f < 32 → at_ u ((f, l, c - 1) :: r) f) ∧ (c ≤ 1 → within r p → p < 32 → at_ u r p))
    (apOp w = 1 → ∃ u, exec (.movi t n) s = .next u ∧ u.apReg t n d = bitsAt w 21 0 % 2 ^ 22 ∧ go u st (pc + 1)) ∧
    (apOp w = 2 → ∃ u, exec (.addi t n) s = .next u ∧ u.apReg t n d = wrap22 (s.apReg t n a + sext 16 w) ∧ go u st (pc + 1)) ∧
    (apOp w = 3 → ∃ u, exec (.add t n) s = .next u ∧
      u.apReg t n d = (s.apReg t n a + s.apReg t n (bitsAt w 21 19)) % 2 ^ 22 ∧ go u st (pc + 1)) ∧
    (apOp w = 4 → ∃ u, exec (.push t n) s = .next u ∧ u.apReg t n a = wrap22 (s.apReg t n a + sext 16 w) ∧
      (held < 64 → (u.agUnit t n).fifo = (s.agUnit t n).fifo ++ [s.apReg t n a % 2 ^ 22]) ∧
      (64 ≤ held → (u.agUnit t n).fifo = (s.agUnit t n).fifo ∧ u.rd (agBase t n) AG_FIFO_STAT.OVF = 1) ∧
      go u st (pc + 1)) ∧
    (apOp w = 5 → len ≠ 0 → st.length < 4 → cnt ≠ 0 → ∃ u, exec (.loop t n) s = .next u ∧
      go u ((pc + 1, len, cnt) :: st) (pc + 1)) ∧
    (apOp w = 5 → len ≠ 0 → st.length < 4 → cnt = 0 → ∃ u, exec (.loop t n) s = .next u ∧ go u st (pc + 1 + len)) ∧
    (apOp w = 5 → len = 0 ∨ 4 ≤ st.length → ∃ u, exec (.loop t n) s = .next u ∧ u.rd (apBase t n) SEQ_APSTAT.PC = pc ∧
      u.bit (apBase t n) SEQ_APSTAT.RUN = false ∧ u.bit (apBase t n) SEQ_APSTAT.ERR = true) ∧
    (apOp w = 0 ∨ 6 ≤ apOp w → ∃ u, exec (.programHalt t n) s = .next u ∧ u.rd (apBase t n) SEQ_APSTAT.PC = pc ∧
      u.bit (apBase t n) SEQ_APSTAT.RUN = false ∧ (6 ≤ apOp w → u.bit (apBase t n) SEQ_APSTAT.ERR = true))

/-- When a block of published and fetched commands stands at the head of a CQ that nothing holds, its first command is
released, no external access of scratch waits for the next cycle, and the queue's bound and drain cycle have passed,
the block opens at the tile's present cycle (the model's reading, assumption 11) with as many commands as stand before
the first refused or held one; only queues and the address programs of the tile change. When the oldest command of a
queue has completed its work, or is to be skipped, and in CQ its last access lies behind the tile's cycle, it retires:
it leaves the queue, RETIRED rises by 1, and the commands after it stay in their order. It counts in the phase that
its queue then holds; a PHASE with a repeat sets the queue's phase to PHID, sets the stop time of the phase that it
leaves, and the start time of the new one when that has none yet; SIG adds 1 to its counter, when the sum fits, no
wait is registered there and no operation that R224 puts after it has reached the counter in the same NCLK; EVT writes
its record into the partition's ring when that has room. A skipped command does none of these three. (R140, R141,
R143, R144, R157, R147, R208, R210, R404, R405) -/
def Obligations.BlocksAndRetirement : Prop :=
  (∀ (s : State) (t : Nat) (l : List Nat), s.live = true → t < 144 → (s.queue (.cq t)).isOpen = false →
     s.held (.cq t) = false → (s.queue (.cq t)).skip = 0 → (s.tile t).replay = none → (s.queue (.cq t)).cur = none →
     (s.tile t).ext = [] → (∀ p ∈ (s.queue (.cq t)).prog, p.again = false) → s.bit (qBase (.cq t)) SEQ_QCTRL.HALT = false →
     s.bit (tileBase t) SEQ_TCTRL.PREEMPT = false → s.blockFrom (.cq t) 64 true (s.qHead (.cq t)) = some l →
     s.cleanCount (.cq t) 0 l ≠ 0 → s.firstReleased (.cq t) (l.headD 0) = true →
     (s.queue (.cq t)).sNext ≤ (s.tile t).cyc → (s.queue (.cq t)).drain + 1 ≤ (s.tile t).cyc →
     ∃ u, exec (.issueBlockStart t) s = .next u ∧
       u.queue (.cq t) = { s.queue (.cq t) with
         isOpen := true, blk := s.cleanCount (.cq t) 0 l, sNext := (s.tile t).cyc } ∧
       (∀ q, q ≠ .cq t → okQueue q = true → u.queue q = s.queue q) ∧ u = { s with queues := u.queues, tiles := u.tiles }) ∧
  (∀ (s : State) (q : QId) (p : Prog) (r : List Prog), s.live = true → okQueue q = true → (s.queue q).prog = p :: r →
     p.st = .done ∨ p.st = .skipped → (∀ t, q = .cq t → p.due < (s.tile t).cyc) → (∀ x ∈ r, x.num ≠ p.num) →
     let n := (s.rd (qBase q) SEQ_QRETIRED.COUNT + 1) % 2 ^ 64
     let p0 := qPack q
     let old := (s.queue q).phase
     let quiet := ∀ k, s.qPart q = some k → s.bit (cenBase k) CEN_PCTRL.NFEN = false
     let phid := if p.st = .done ∧ cwOPCODE p.w = opPHASE ∧ cwREPEAT p.w ≠ 0 then some (phasePHID p.w) else none
     ∃ u, exec (.commandRetire q) s = .next u ∧ (u.queue q).prog = r ∧ u.rd (qBase q) SEQ_QRETIRED.COUNT = n ∧
       (∀ k, s.qPart q = some k → (u.phaseRec k old).cmds = (s.phaseRec k old).cmds + 1 ∧
         (u.queue q).phase = phid.getD old ∧
         (∀ ph, phid = some ph → (u.phaseRec k ph).entered = true ∧ (u.phaseRec k ph).started = true ∧
           ((∀ x ∈ r, x.faulted = false) → u.rd (cenBase k) (CEN_PH_STOP.TIME old) = s.ns % 2 ^ 64) ∧
           ((s.phaseRec k ph).started = false → u.rd (cenBase k) (CEN_PH_START.TIME ph) = s.ns % 2 ^ 64))) ∧
       (p.st = .done → cwSIG p.w = 1 → quiet →
         let c := s.ctr p0 (cwSIGIDX p.w)
         let rank := if cwOPCODE p.w = opRCOPY then ctrSwitch else qRank q
         s.inRange p0 (cwSIGIDX p.w) = true → c.waits = [] → c.val < 0xFFFFFFFF →
         ((s.ctrNow p0 (cwSIGIDX p.w)).ops.any (fun o => decide (rank < o.1))) = false →
         (u.ctr p0 (cwSIGIDX p.w)).val = c.val + 1) ∧
       (p.st = .skipped ∨ cwSIG p.w = 0 → quiet → u.ctrs = s.ctrs) ∧
       (∀ k, p.st = .done → cwEVT p.w = 1 → cwSIG p.w = 0 → s.qPart q = some k → s.bridges = 0 → (∀ x ∈ r, x.faulted = false) →
         s.bit (cenBase k) CEN_PCTRL.FPDETAIL = false → s.rd (cenBase k) CEN_PCTRL.CMODE = 0 →
         s.bit (trcPBase k) TRC_ECFG.EN = true → s.inPartHbm k (s.evAt k) 64 = true →
         s.rd (trcPBase k) TRC_EWR.COUNT - s.rd (trcPBase k) TRC_ERD.COUNT + 64 ≤ 2 ^ ringLog (s.rd (trcPBase k) TRC_ECFG.LOG2) 24 →
         u.mem = mwrite s.mem (s.evAt k) (evRecord .seqTagdone k s.ns { qword := qWord q, tag := cwTAG p.w, retired := n }) ∧
         u.rd (trcPBase k) TRC_EWR.COUNT = (s.rd (trcPBase k) TRC_EWR.COUNT + 64) % 2 ^ TRC_EWR.COUNT.wid))

/-- A fetch of a ring in HBM whose read delivers nothing wrong and succeeds appends to the prefetched commands those
of the eight slots from the first wanted one up to TAIL, at most to 128; a fetch whose read fails keeps its status and
address for the fault of R135. A fetch of a ring in host memory joins the accesses of the partition's LD, and when the
host answers the one piece of such an access with its 256 bytes, and no bridge on their way to the pack is out of
service, the commands are delivered the same way, up to the TAIL at the start of the fetch, and the bytes counted.
(R131, R133, R135, R476) -/
def Obligations.FetchDelivers : Prop :=
  ∀ (s : State) (q : QId) (n i : Nat), s.live = true → okQueue q = true →
    (∀ a upset, s.nextFetch q = some (n, a, i) → s.rd (qBase q) SEQ_QCTRL.LOC = 0 → a < 2 ^ 40 →
      (∀ x ∈ upset, 8 ≤ x.1) ∨ rowOf a ≠ 0 →
      let x := memRead s (.unit (qPack q)) a 256
      exec (.fetch q upset) s = .next (if x.2.1 = 0 then deliver x.1 q n i x.2.2 else fetchFailed x.1 q n x.2.1 a)) ∧
    (∀ a upset, s.nextFetch q = some (n, a, i) → s.rd (qBase q) SEQ_QCTRL.LOC ≠ 0 →
      ∃ u, exec (.fetch q upset) s = .next u ∧ u.queue q = { s.queue q with fetching := some (s.qTail q) } ∧
        tget u.haccs s.haccNext = some { ld := s.packLd (qPack q), kind := .read, addr := a, len := 256, owner := .fetch q n i,
                                         pack := qPack q } ∧
        u.haccNext = s.haccNext + 1 ∧ u = { s with queues := u.queues, haccs := u.haccs, haccNext := u.haccNext }) ∧
    (∀ piece p x bs, tget s.hpieces piece = some p → tget s.haccs p.acc = some x → x.owner = .fetch q n i →
      x.kind = .read → x.status = 0 → x.parts = [] → x.len = 256 → x.taken = 256 → x.ld < 8 → p.off = 0 → p.len = 256 →
      (∀ y ∈ s.hpieces, y.2.acc = p.acc → y.1 = piece) → bs.length = 256 → s.wayFails hostStop (packStop x.pack) = false →
      ∃ u, exec (.hostCompletion piece (.data bs)) s = .next u ∧
        (let off := fun m => (m + 2 ^ 32 - s.qHead q) % 2 ^ 32
         (u.queue q).pre = (s.queue q).pre ++
          (List.range (min (8 - i) (min (off ((s.queue q).fetching.getD (s.qTail q)) - off n) (128 - (s.queue q).pre.length)))).map
            (fun j => ((n + j) % 2 ^ 32, leNat ((bs.drop (32 * (i + j))).take 32)))) ∧
        (u.queue q).fetching = none ∧
        u.rd (cxlpLBase x.ld) CXLP_LDRD.BYTES = (s.rd (cxlpLBase x.ld) CXLP_LDRD.BYTES + 256) % 2 ^ CXLP_LDRD.BYTES.wid ∧
        regsBut s u [fkey (cxlpLBase x.ld) CXLP_LDRD.BYTES] ∧
        u = { s with regs := u.regs, queues := u.queues, haccs := u.haccs, hpieces := u.hpieces })

/-- When every earlier command has retired and the command at HEAD is refused and no break holds it, SEQ_FAULT sets
FAULT, FAULT_CODE to the first cause of R556 and TAG, closes the block, and raises its event, whose record may set a
counter under R424; no other register outside the event blocks but TILE_STAT.NO_LOWBIT of the tile and no other byte
of memory changes. When a break applies to the command, SEQ_BREAK sets BREAK and TAG, closes the block and raises its
event; HEAD stays, and no other register outside the event blocks and no other byte of memory changes. (R157, R158,
R159, R166, R535, R556) -/
def Obligations.HeadHeld : Prop :=
  ∀ (s : State) (q : QId) (num w : Nat), s.live = true → okQueue q = true → s.atHead q = true →
    s.headCmd q = some (num, w) →
    let b := qBase q
    let frame := fun (u : State) => memButEv s u (s.qPart q) ∧ u = { s with
      regs := u.regs, queues := u.queues, ctrs := u.ctrs, mem := u.mem, herr := u.herr, msixPend := u.msixPend, out := u.out }
    (∀ code, s.refuseCode q w = some code → s.breakAt q w 0 = false →
      ∃ u, exec (.seqFault q) s = .next u ∧ u.rd b SEQ_QSTAT.FAULT = 1 ∧
        u.rd b SEQ_QSTAT.FAULT_CODE = code ∧ u.rd b SEQ_QSTAT.TAG = cwTAG w % 2 ^ 16 ∧
        u.queue q = { s.queue q with hold := .refused, blk := 0, isOpen := false, wait := (u.queue q).wait } ∧
        regsButEv s u ([fkey b SEQ_QSTAT.FAULT, fkey b SEQ_QSTAT.FAULT_CODE, fkey b SEQ_QSTAT.TAG] ++
          (match q with
           | .cq t => [fkey (tileBase t) TILE_STAT.NO_LOWBIT]
           | _ => [])) ∧ frame u) ∧
    (s.breakAt q w 0 = true →
      ∃ u, exec (.seqBreak q) s = .next u ∧ u.rd b SEQ_QSTAT.BREAK = 1 ∧
        u.rd b SEQ_QSTAT.TAG = cwTAG w % 2 ^ 16 ∧ u.queue q = { s.queue q with blk := 0, isOpen := false, wait := (u.queue q).wait } ∧
        regsButEv s u [fkey b SEQ_QSTAT.BREAK, fkey b SEQ_QSTAT.TAG] ∧ frame u)

/-- A write of SEQ_QCTRL that passes its checks and sets EN with a legal ring size enables a clear queue in a pack of
a partition while every bridge serves, and its retired count starts from 0 unless a restore has loaded it (the model's
reading, assumption 125); one that clears EN of a queue without a fault, outside any switch and preemption, drops what
it prefetched and keeps its commands in progress; a write of HALT sets or clears HALT, and when it sets HALT the open
block takes no further command. Each completes with OK. (R167, R433, R538) -/
def Obligations.EnableHalt : Prop :=
  ∀ (s : State) (c : Src) (q : QId) (lg v : Nat), s.live = true → okQueue q = true → s.accepts c (qBase q) 4 →
    s.awake (qPack q) → lg < 32 →
    let b := qBase q
    (s.rd b SEQ_QCTRL.EN = 0 → 7 ≤ lg → lg ≤ 25 → (s.qPart q).isSome = true → s.bridges = 0 →
      ∃ u, exec (.seqQctrlEn c q (1 + 256 * lg)) s = .next u ∧ u.rd b SEQ_QCTRL.EN = 1 ∧ u.rd b SEQ_QCTRL.HALT = 0 ∧
        u.rd b SEQ_QCTRL.RING_LOG2 = lg ∧ u.rd b SEQ_QCTRL.LOC = 0 ∧
        u.rd b SEQ_QRETIRED.COUNT = (if (s.queue q).loaded then s.rd b SEQ_QRETIRED.COUNT else 0) ∧
        u.queue q = { s.queue q with whole := false, loaded := false } ∧
        u = { s with regs := u.regs, queues := u.queues, out := s.out ++ [.compl 0 []] }) ∧
    (s.rd b SEQ_QCTRL.EN = 1 → s.rd b SEQ_QSTAT.FAULT = 0 →
      (∀ k, s.qPart q = some k → s.bit (shapePBase k) SHAPE_OVSTAT.PENDING = false ∧ (s.part k).barrier = []) →
      (∀ t, q = .cq t → s.rd (tileBase t) SEQ_TCTRL.PREEMPT = 0) →
      ∃ u, exec (.seqQctrlEn c q (256 * lg)) s = .next u ∧ u.rd b SEQ_QCTRL.EN = 0 ∧ u.rd b SEQ_QSTAT.BREAK = 0 ∧
        (u.queue q).pre = [] ∧ (u.queue q).wait = none ∧ (u.queue q).prog = (s.queue q).prog ∧
        u.out = s.out ++ [.compl 0 []]) ∧
    (∃ u, exec (.halt c q v) s = .next u ∧ u.rd b SEQ_QCTRL.HALT = v % 2 ∧
      u.rd b SEQ_QCTRL.EN = s.rd b SEQ_QCTRL.EN ∧ u.rd b SEQ_QCTRL.RING_LOG2 = s.rd b SEQ_QCTRL.RING_LOG2 ∧
      u.rd b SEQ_QCTRL.LOC = s.rd b SEQ_QCTRL.LOC ∧
      (v % 2 = 1 → u.queue q = { s.queue q with
        blk := 0, isOpen := (s.queue q).isOpen && (s.queue q).cur.isSome }) ∧
      (v % 2 = 0 → u.queue q = s.queue q) ∧
      regsBut s u [fkey b SEQ_QCTRL.EN, fkey b SEQ_QCTRL.HALT, fkey b SEQ_QCTRL.LOC, fkey b SEQ_QCTRL.RING_LOG2] ∧
      u = { s with regs := u.regs, queues := u.queues, out := s.out ++ [.compl 0 []] })

/-- In a queue without an issued command that a refusal or a break holds, a write of RESUME that passes its checks
clears FAULT or BREAK, and after a break the held command may pass it; the one command that has faulted after its
issue is to run all its repeats again, in CQ in a new block. RESUME with SKIP retires the held command: FAULT or BREAK
clear, HEAD and RETIRED rise by 1. (R159, R166, R218) -/
def Obligations.ResumeSkip : Prop :=
  ∀ (s : State) (c : Src) (q : QId), s.live = true → okQueue q = true → s.accepts c (qBase q) 4 → s.awake (qPack q) →
    let b := qBase q
    (s.rd b SEQ_QSTAT.FAULT = 1 → (s.queue q).hold = .refused → (s.queue q).prog = [] →
      ∃ u, exec (.resume c q) s = .next u ∧ u.rd b SEQ_QSTAT.FAULT = 0 ∧ (u.queue q).hold = .none ∧
        u.qHead q = s.qHead q ∧ u = { s with regs := u.regs, queues := u.queues, out := s.out ++ [.compl 0 []] }) ∧
    (s.rd b SEQ_QSTAT.FAULT = 0 → s.rd b SEQ_QSTAT.BREAK = 1 →
      ∃ u, exec (.resume c q) s = .next u ∧ u.rd b SEQ_QSTAT.BREAK = 0 ∧ (u.queue q).brkPass = true ∧
        u.qHead q = s.qHead q ∧ u = { s with regs := u.regs, queues := u.queues, out := s.out ++ [.compl 0 []] }) ∧
    (∀ p l r, s.rd b SEQ_QSTAT.FAULT = 1 → (s.queue q).hold = .after p.num → (s.queue q).prog = l ++ p :: r →
      (∀ x ∈ l ++ r, x.num ≠ p.num ∧ x.faulted = false) → cwOPCODE p.w ≠ opMOVE → cwOPCODE p.w ≠ opRCOPY →
      ∃ u, exec (.resume c q) s = .next u ∧ u.rd b SEQ_QSTAT.FAULT = 0 ∧
        (u.queue q).prog = l ++ { p with st := .work, err := none, left := cwREPEAT p.w, pieces := 0, fp := [], errRep := 0,
                                         again := qKind q == 0 } :: r ∧
        u = { s with regs := u.regs, queues := u.queues, out := s.out ++ [.compl 0 []] }) ∧
    (s.rd b SEQ_QSTAT.FAULT = 1 ∧ (s.queue q).hold = .refused ∨ s.rd b SEQ_QSTAT.FAULT = 0 ∧ s.rd b SEQ_QSTAT.BREAK = 1 →
      (s.queue q).prog = [] → (s.headCmd q).isSome = true →
      ∃ u, exec (.skip c q) s = .next u ∧ u.rd b SEQ_QSTAT.FAULT = 0 ∧ u.rd b SEQ_QSTAT.BREAK = (if s.rd b SEQ_QSTAT.FAULT = 1
          then s.rd b SEQ_QSTAT.BREAK else 0) ∧
        u.qHead q = (s.qHead q + 1) % 2 ^ 32 ∧ (u.queue q).prog = [] ∧
        u.rd b SEQ_QRETIRED.COUNT = (s.rd b SEQ_QRETIRED.COUNT + 1) % 2 ^ 64 ∧
        u = { s with
          regs := u.regs, queues := u.queues, ctrs := u.ctrs, parts := u.parts, out := s.out ++ [.compl 0 []] })

/-- A write of TAIL that passes its checks and leaves at most 2^RING_LOG2 commands between HEAD and TAIL sets TAIL;
one that does not lie before the old TAIL changes nothing else, and one that does takes back what was read of the
commands from the new TAIL on. One that would leave more than 2^RING_LOG2 keeps TAIL, and in a queue without a fault
sets FAULT with code 0x07 at once (the model's choice, assumption 123). (R132, R133) -/
def Obligations.TailWrite : Prop :=
  ∀ (s : State) (c : Src) (q : QId) (v : Nat), s.live = true → okQueue q = true → s.accepts c (qBase q + 0x10) 4 →
    s.awake (qPack q) → v < 2 ^ 32 →
    let b := qBase q
    let off := fun m => (m + 2 ^ 32 - s.qHead q) % 2 ^ 32
    (off v ≤ 2 ^ s.rd b SEQ_QCTRL.RING_LOG2 →
      ∃ u, exec (.seqQtail c q v) s = .next u ∧ u.qTail q = v ∧ u.out = s.out ++ [.compl 0 []] ∧
        (off (s.qTail q) ≤ off v → regsBut s u [fkey b SEQ_QTAIL.TAIL] ∧ u = { s with regs := u.regs, out := u.out }) ∧
        (off v < off (s.qTail q) → (∀ x ∈ (u.queue q).pre, x ∈ (s.queue q).pre ∧ off x.1 < off v) ∧
          (u.queue q).prog = (s.queue q).prog ∧ regsBut s u [fkey b SEQ_QTAIL.TAIL, fkey b SEQ_QLSTAT.ELAPSED] ∧
          u = { s with regs := u.regs, queues := u.queues, haccs := u.haccs, out := u.out })) ∧
    (2 ^ s.rd b SEQ_QCTRL.RING_LOG2 < off v → s.rd b SEQ_QSTAT.FAULT = 0 →
      ∃ u, exec (.seqQtail c q v) s = .next u ∧ u.rd b SEQ_QSTAT.FAULT = 1 ∧ u.rd b SEQ_QSTAT.FAULT_CODE = 7 ∧
        u.qTail q = s.qTail q ∧ (u.queue q).hold = .overrun ∧
        regsButEv s u [fkey b SEQ_QSTAT.FAULT, fkey b SEQ_QSTAT.FAULT_CODE] ∧ memButEv s u (s.qPart q))

/-- A write of SEQ_TCTRL.PREEMPT that passes its checks, on a tile that is neither being saved nor restored and whose
queues have no wait, sets PREEMPT. While CQ stands at a switch or issues a command with scaled replay nothing else
happens; otherwise, with no address program about to start and no repeat of an open block due later, the tile is being
preempted: the issue block closes, the command that is being issued keeps its place, and MQ no longer stands arrived
at a switch. Once the tile is ready, and no restore waits, the written record ends the preemption: PREEMPT clears,
SAVED and PREEMPTED of both queues are set and CQ holds no command; when the write fails REC_ERR is set in place of
SAVED. (R122, R160, R161, R168, R399) -/
def Obligations.PreemptTile : Prop :=
  ∀ (s : State) (c : Src) (t : Nat), s.live = true → t < 144 →
    (s.accepts c (tileBase t + 0x1800) 4 → s.awake (packOf t) → s.rd (tileBase t) SEQ_TCTRL.PREEMPT = 0 →
      s.rd (tileBase t) SEQ_TCTRL.RESTORE = 0 → (s.tile t).preempting = false → (s.tile t).restoring = false →
      (s.queue (.cq t)).wait = none → (s.queue (.mq t)).wait = none →
      (s.preemptWaits t = true →
        ∃ u, exec (.preempt c t) s = .next u ∧ u.rd (tileBase t) SEQ_TCTRL.PREEMPT = 1 ∧
          regsBut s u [fkey (tileBase t) SEQ_TCTRL.PREEMPT] ∧ u = { s with regs := u.regs, out := s.out ++ [.compl 0 []] }) ∧
      (s.preemptWaits t = false → (∀ n, n < 3 → (s.agUnit t n).starts = []) →
        ((s.queue (.cq t)).isOpen = true → (s.queue (.cq t)).sNext ≤ (s.tile t).cyc) →
        ∃ u, exec (.preempt c t) s = .next u ∧ u.rd (tileBase t) SEQ_TCTRL.PREEMPT = 1 ∧
          (u.tile t).preempting = true ∧ (u.queue (.cq t)).blk = 0 ∧ (u.queue (.cq t)).isOpen = false ∧
          (u.queue (.cq t)).cur = (s.queue (.cq t)).cur ∧ (u.queue (.mq t)).arrived = false ∧
          regsBut s u [fkey (tileBase t) SEQ_TCTRL.PREEMPT] ∧
          u = { s with regs := u.regs, queues := u.queues, tiles := u.tiles, out := s.out ++ [.compl 0 []] })) ∧
    (s.saveReady t = true → (s.queue (.cq t)).drain + 1 ≤ (s.tile t).cyc → s.rd (tileBase t) SEQ_TCTRL.RESTORE = 0 →
      let cur := (s.queue (.cq t)).cur
      let cen := match cur with
        | some x => tgetD (s.tile t).cen x.num {}
        | none => {}
      let wr := memWrite s (.unit (packOf t)) (s.rd (tileBase t) SEQ_TSAVE.ADDR * 4096) (saveRecord s t cur cen)
      ∃ u, exec (.preemptSaveDone t) s = .next u ∧ u.rd (tileBase t) SEQ_TCTRL.PREEMPT = 0 ∧
        u.rd (qBase (.cq t)) SEQ_QSTAT.PREEMPTED = 1 ∧ u.rd (qBase (.mq t)) SEQ_QSTAT.PREEMPTED = 1 ∧
        (wr.2 = 0 → u.rd (tileBase t) SEQ_TSTAT.SAVED = 1 ∧ (u.queue (.cq t)).prog = [] ∧ (u.queue (.cq t)).cur = none) ∧
        (wr.2 ≠ 0 → u.rd (tileBase t) SEQ_TSTAT.REC_ERR = 1 ∧ u.mem = wr.1.mem))

/-- A write of SEQ_TCTRL.RESTORE that passes its checks, on a tile neither being saved nor restored, reads the record
at SEQ_TSAVE: a right one sets RESTORING and loads the accumulators and the HEAD and RETIRED of both queues, a wrong
one, and by the model's choice (assumption 18) one that cannot be read, sets REC_ERR and faults CQ with code 0x09. At
the end of a restore RESTORE, RESTORING and PREEMPTED of both queues clear and RESTORED is set; then a preemption that
waits takes effect, or the remaining repeats of an interrupted command begin a block. (R164, R214) -/
def Obligations.RestoreTile : Prop :=
  ∀ (s : State) (c : Src) (t : Nat), s.live = true → t < 144 →
    (s.accepts c (tileBase t + 0x1800) 4 → s.awake (packOf t) → s.rd (tileBase t) SEQ_TCTRL.PREEMPT = 0 →
      s.rd (tileBase t) SEQ_TCTRL.RESTORE = 0 →
      let x := memRead (s.wr (tileBase t) SEQ_TCTRL.RESTORE 1) (.unit (packOf t)) (s.rd (tileBase t) SEQ_TSAVE.ADDR * 4096) recordSize
      (x.2.1 = 0 → recordOk x.2.2 = true →
        ∃ u, exec (.tileRestore c t) s = .next u ∧ u.rd (tileBase t) SEQ_TSTAT.RESTORING = 1 ∧
          u.rd (tileBase t) SEQ_TCTRL.RESTORE = 1 ∧
          (u.tile t).acc = banksOf 49152 0 (x.2.2.drop 0x1000) ∧
          u.qHead (.cq t) = leNat (slice x.2.2 0x10 4) % 2 ^ 32 ∧ u.qHead (.mq t) = leNat (slice x.2.2 0x14 4) % 2 ^ 32 ∧
          u.rd (qBase (.cq t)) SEQ_QRETIRED.COUNT = leNat (slice x.2.2 0x18 8) % 2 ^ 64 ∧
          u.rd (qBase (.mq t)) SEQ_QRETIRED.COUNT = leNat (slice x.2.2 0x20 8) % 2 ^ 64) ∧
      (x.2.1 ≠ 0 ∨ recordOk x.2.2 = false →
        ∃ u, exec (.tileRestore c t) s = .next u ∧ u.rd (tileBase t) SEQ_TSTAT.REC_ERR = 1 ∧
          u.rd (qBase (.cq t)) SEQ_QSTAT.FAULT = 1 ∧ u.rd (qBase (.cq t)) SEQ_QSTAT.FAULT_CODE = 9)) ∧
    (s.rd (tileBase t) SEQ_TSTAT.RESTORING = 1 →
      ∃ u v, exec (.tileRestoreDone t) s = .next u ∧ v.rd (tileBase t) SEQ_TCTRL.RESTORE = 0 ∧
        v.rd (tileBase t) SEQ_TSTAT.RESTORING = 0 ∧ v.rd (tileBase t) SEQ_TSTAT.RESTORED = 1 ∧
        v.rd (qBase (.cq t)) SEQ_QSTAT.PREEMPTED = 0 ∧ v.rd (qBase (.mq t)) SEQ_QSTAT.PREEMPTED = 0 ∧
        (v.tile t).restoring = false ∧ v = { s with regs := v.regs, tiles := v.tiles } ∧
        u = (if v.bit (tileBase t) SEQ_TCTRL.PREEMPT then preemptSettle v t
             else if (s.queue (.cq t)).cur.isSome then startBlock v t else v))

/-- A write of SEQ_PCTRL.PREEMPT that passes its checks sets PREEMPTED of GQ and PMQ at once when both have stopped,
and otherwise leaves PREEMPT set until they have; a write of RESUME lets stopped queues go on, and during a preemption
it waits. Only registers change. (R165) -/
def Obligations.PackPreempts : Prop :=
  ∀ (s : State) (c : Src) (p : Nat), s.live = true → p < 16 → s.accepts c (packBase p + 0x800) 4 → s.awake p →
    (s.queue (.gq p)).wait = none → (s.queue (.pmq p)).wait = none →
    let b := packBase p
    let pre := fun (u : State) => (u.rd (qBase (.gq p)) SEQ_QSTAT.PREEMPTED, u.rd (qBase (.pmq p)) SEQ_QSTAT.PREEMPTED)
    let keys := [fkey b SEQ_PCTRL.PREEMPT, fkey b SEQ_PCTRL.RESUME, fkey (qBase (.gq p)) SEQ_QSTAT.PREEMPTED,
      fkey (qBase (.pmq p)) SEQ_QSTAT.PREEMPTED]
    let fin := fun (u : State) => regsBut s u keys ∧ u = { s with regs := u.regs, out := s.out ++ [.compl 0 []] }
    (∃ u, exec (.packPreempt c p) s = .next u ∧ fin u ∧
      (s.packStopped p = true → u.rd b SEQ_PCTRL.PREEMPT = 0 ∧
        pre u = (if s.rd b SEQ_PCTRL.RESUME = 0 then (1, 1) else (0, 0))) ∧
      (s.packStopped p = false → u.rd b SEQ_PCTRL.PREEMPT = 1 ∧ pre u = pre s)) ∧
    (∃ u, exec (.packResume c p) s = .next u ∧ fin u ∧
      (s.rd b SEQ_PCTRL.PREEMPT = 0 → pre u = (0, 0) ∧ u.rd b SEQ_PCTRL.RESUME = 0) ∧
      (s.rd b SEQ_PCTRL.PREEMPT = 1 → u.rd b SEQ_PCTRL.RESUME = 1 ∧ pre u = pre s))

/-- A COUNTER_ADD or COUNTER_SET on a counter in a valid range of a partition's pack completes, whatever waits are
registered there and when no operation that R224 puts after it has reached the counter in the same NCLK: an add whose
sum fits stores the sum, a set stores its value, and then the registered waits are examined in their order. Without a
registered wait the counter's value is all that changes, beside the note of the operation among those of its NCLK
(assumption 108). An add whose sum does not fit sets OVF and the sticky index, and the counter saturates with its
overflow bit, which the event's record cannot alter while the partition watches no non-finite word. With one
registered wait whose threshold the sum reaches, that wait is released, and a consuming wait subtracts its threshold
in the same step. On a counter outside every valid range both complete and change nothing (the model's reading,
assumptions 33 and 6). (R222, R223, R224, R231, R232, R233) -/
def Obligations.CounterOps : Prop :=
  ∀ (s : State) (p i n : Nat), s.live = true → p < 16 → n < 2 ^ 32 →
    (s.packPart p = none ∨ s.inRange p i = false →
      exec (.counterAdd p i n) s = .next s ∧ exec (.counterSet p i n) s = .next s) ∧
    ((s.packPart p).isSome = true → s.inRange p i = true →
      let c := s.ctr p i
      let x := s.ctrNow p i
      let noted := fun (set : Bool) => some { x with ops := placeOp (ctrMesh, set, n) x.ops }
      x.ops.any (fun o => decide (ctrMesh < o.1)) = false →
      (c.val + n ≤ 0xFFFFFFFF →
        exec (.counterAdd p i n) s = .next (examine (s.setC p i { c with val := c.val + n, now := noted false }) p i)) ∧
      exec (.counterSet p i n) s = .next (examine (s.setC p i { c with val := n, now := noted true }) p i) ∧
      (c.waits = [] →
        (c.val + n ≤ 0xFFFFFFFF →
          exec (.counterAdd p i n) s = .next (s.setC p i { c with val := c.val + n, now := noted false })) ∧
        (0xFFFFFFFF < c.val + n → ∃ u, exec (.counterAdd p i n) s = .next u ∧
          ((∀ k, s.packPart p = some k → s.bit (cenBase k) CEN_PCTRL.NFEN = false) →
            u.ctr p i = { c with val := 0xFFFFFFFF, ovf := true, now := noted false }) ∧ u.rd (syncBase p) SYNC_STAT.OVF = 1 ∧
          (s.rd (syncBase p) SYNC_STAT.OVF = 0 → u.rd (syncBase p) SYNC_STAT.OVF_IDX = i) ∧
          (s.rd (syncBase p) SYNC_STAT.OVF = 1 → u.rd (syncBase p) SYNC_STAT.OVF_IDX = s.rd (syncBase p) SYNC_STAT.OVF_IDX)) ∧
        exec (.counterSet p i n) s = .next (s.setC p i { c with val := n, now := noted true })) ∧
      (∀ q w, okQueue q = true → c.waits = [q] → (s.queue q).wait = some w → w.released = false → w.thr ≤ c.val + n →
        c.val + n ≤ 0xFFFFFFFF →
        ∃ u, exec (.counterAdd p i n) s = .next u ∧
          u.ctr p i = { c with
            val := if w.cons then c.val + n - w.thr else c.val + n, waits := []
            now := (noted false).map (fun y => { y with rel := y.rel ++ [q] }) } ∧
          (u.queue q).wait = some { w with released := true } ∧ u = { s with queues := u.queues, ctrs := u.ctrs }))

/-- A running Leash whose count has reached its limit sets FIRED, waits for its restart, with STOP set halts every
queue of its partition and without it none, and starts a Howl of its partition with cause 1 and its queue; a write of
SYNC_CTRL.HOWL that passes its checks starts one with cause 2 and remembers the pack that asked. A started Howl takes
the fabric time and keeps whether the first write of its slot, that of the format word as 0, failed, and while one is
being written another trigger is only counted. When the writer finishes, it writes the sections and then the header of
the slot of the next number, with format 1 and its CRC, or leaves the format at 0 when an earlier write of it has
failed; memory changes nowhere else outside the places of the event record. The partition's Howl count rises by 1,
also after a failed write (the model's reading, assumption 51), every pack of it shows the count and HOWL_DONE, and no
Howl is in progress. (R237, R238, R240, R241, R242, R249) -/
def Obligations.LeashHowl : Prop :=
  ∀ (s : State) (k : Nat), s.live = true → k < 8 →
    let fmt := fun (v : State) => memWrite v .kennel (s.howlSlot k ((s.part k).howls + 1)) [0, 0, 0, 0]
    (∀ q, okQueue q = true → s.qPart q = some k → s.leashRuns q = true →
      s.leashLimit q ≤ s.rd (qBase q) SEQ_QLSTAT.ELAPSED →
      ∃ u v, exec (.leashFire q) s = .next u ∧ u.rd (qBase q) SEQ_QLSTAT.FIRED = 1 ∧ (u.queue q).armed = false ∧
        (s.bit (qBase q) SEQ_QLEASH.STOP = true →
          ∀ x ∈ s.partQueues k, u.rd (qBase x) SEQ_QCTRL.HALT = 1 ∧ (u.queue x).blk = 0) ∧
        (s.bit (qBase q) SEQ_QLEASH.STOP = false →
          ∀ x, okQueue x = true → u.rd (qBase x) SEQ_QCTRL.HALT = s.rd (qBase x) SEQ_QCTRL.HALT) ∧
        (u.part k).howl = (if (s.part k).howl.isSome then (s.part k).howl else some (1, qWord q, s.ns, (fmt v).2 != 0)) ∧
        memButEv s v (some k) ∧
        regsButEv s v (fkey (qBase q) SEQ_QLSTAT.FIRED :: (s.partQueues k).map (fun x => fkey (qBase x) SEQ_QCTRL.HALT)) ∧
        v = { s with regs := v.regs, queues := v.queues, ctrs := v.ctrs, mem := v.mem, herr := v.herr
                     msixPend := v.msixPend, out := v.out }) ∧
    (∀ c p, p < 16 → s.packPart p = some k → s.accepts c (syncBase p + 8) 4 →
      ∃ u v, exec (.howl c p) s = .next u ∧ (u.part k).howlReq = (s.part k).howlReq ++ [p] ∧
        (u.part k).howl = (if (s.part k).howl.isSome then (s.part k).howl else some (2, 0, s.ns, (fmt v).2 != 0)) ∧
        (u.part k).howlMore = (if (s.part k).howl.isSome then (s.part k).howlMore + 1 else 0) ∧
        regsBut s v [fkey (syncBase p) SYNC_CTRL.OVF_EVT, fkey (pmuBase 0) PMU_GATESTAT.PACKS,
          fkey (pmuBase 1) PMU_GATESTAT.PACKS] ∧
        v = { s with regs := v.regs, tiles := v.tiles, parts := v.parts }) ∧
    (∀ h, (s.part k).howl = some h →
      let n := (s.part k).howls + 1
      let a := s.howlSlot k n
      let bytes := s.howlBytes k n h (s.part k).howlMore
      let w1 := memWrite s .kennel (a + 0x1000) (bytes.drop 0x1000)
      let w2 := memWrite w1.1 .kennel a (bytes.take 0x1000)
      bytes.take 4 = [1, 0, 0, 0] ∧
      ∃ u, exec (.howlDone k) s = .next u ∧ (u.part k).howl = none ∧ (u.part k).howls = n ∧
        (h.2.2.2 = false → w1.2 = 0 → w2.2 = 0 → memButEv w2.1 u (some k)) ∧
        (h.2.2.2 = true ∨ w1.2 ≠ 0 → memButEv (memWrite w1.1 .kennel a [0, 0, 0, 0]).1 u (some k)) ∧
        (∀ p ∈ s.partPacks k, u.rd (syncBase p) SYNC_HOWLCNT.COUNT = n % 2 ^ 32 ∧
          u.rd (syncBase p) SYNC_STAT.HOWL_DONE = 1))

/-- When a low-bit command with no cause of R556 before NO_LOWBIT stands at the head of the CQ of a tile whose index
is not 8, no issue block opens with it, it never issues, and once it may be judged SEQ_FAULT faults the queue with
NO_LOWBIT; the fault does no data work: it changes no tile, no byte of memory outside event records and no register
but those of the fault, and the command does not issue after it. (R46) -/
def Obligations.LowBitRefused : Prop :=
  ∀ (s : State) (t num w : Nat), s.live = true → t < 144 → t % 9 ≠ 8 → cwOPCODE w = opMMALB →
    envReserved w = false → cwREPEAT w ≤ 2 ^ 20 → (∀ n ∈ agsUsed w, amOf w n ≠ 3 ∧ s.modeOn (.cq t) (amOf w n) = true) →
    ¬ (2 ∈ agsUsed w ∧ cwAM2 w = 2) → (cwSIG w = 1 → s.inRange (packOf t) (cwSIGIDX w) = true) →
    let q := QId.cq t
    s.refuseCode q w = some 0x0A ∧ (∀ r, s.cleanCount q 0 (w :: r) = 0) ∧
      (s.headCmd q = some (num, w) → (s.queue q).isOpen = false → (s.queue q).cur = none →
        ∀ n, exec (.mmaLb t n) s = .next s) ∧
      (s.atHead q = true → s.headCmd q = some (num, w) → s.breakAt q w 0 = false →
        ∃ u, exec (.seqFault q) s = .next u ∧ u.rd (qBase q) SEQ_QSTAT.FAULT = 1 ∧
          u.rd (qBase q) SEQ_QSTAT.FAULT_CODE = 0x0A ∧ u.rd (tileBase t) TILE_STAT.NO_LOWBIT = 1 ∧
          u.qHead q = s.qHead q ∧ memButEv s u (s.qPart q) ∧
          regsButEv s u [fkey (qBase q) SEQ_QSTAT.FAULT, fkey (qBase q) SEQ_QSTAT.FAULT_CODE, fkey (qBase q) SEQ_QSTAT.TAG,
            fkey (tileBase t) TILE_STAT.NO_LOWBIT] ∧
          u = { s with regs := u.regs, queues := u.queues, ctrs := u.ctrs, mem := u.mem, herr := u.herr,
                       msixPend := u.msixPend, out := u.out } ∧
          ∀ n, exec (.mmaLb t n) u = .next u)

/-- A load or store by a source that may reach the partition, inside one scratch window of an awake pack with every
bridge in service, answers the bytes that stand there or writes the bytes given and nothing else in memory; one at a
reserved address completes with BAD_ADDR and changes nothing. A load or store of a unit, a tile or an LD's host at
another device of the board, to a range that can be reached so and with KEYS, opens a transfer of the sectors that it
touches; a load and a store that follows no earlier one send their packets. (R33, R35, R49, R53, R226, R534) -/
def Obligations.LoadStore : Prop :=
  ∀ (s : State) (c : Src) (a n : Nat) (bytes : List Nat), s.live = true → a < 2 ^ 43 → 0 < n → bytes.length = n →
    let la := a % 2 ^ 40
    let len := 32 * ((la % 32 + n + 31) / 32)
    let own := s.slotOfAccess c a = slotOf s.coord
    (∀ t k, own → t < 144 → s.tilePresent t = true → s.packPart (packOf t) = some k → s.mayReach (askSrc c) k = true →
      s.bridges = 0 → s.awake (packOf t) → scratchBase t ≤ la → la + n ≤ scratchBase t + 0x400000 →
      exec (.load c a n) s = .next { s with out := s.out ++ [.compl 0 (mread s.mem la n)] } ∧
      ∃ u, exec (.store c a bytes) s = .next u ∧ u.mem = mwrite s.mem la (bytes.map (fun b => b % 256)) ∧
        u = { s with mem := u.mem, queues := u.queues, ctrs := u.ctrs, tiles := u.tiles, out := s.out ++ [.compl 0 []] }) ∧
    (own → rowOf la = 99 →
      exec (.load c a n) s = .next { s with out := s.out ++ [.compl stBadAddr []] } ∧
      exec (.store c a bytes) s = .next { s with out := s.out ++ [.compl stBadAddr []] }) ∧
    (∀ f, ¬ own → s.farStatus c a n = 0 → s.farOf c = some f →
      (∃ u x, exec (.load c a n) s = .next u ∧ tget u.xfers s.xferNext = some x ∧
        x.owner = .load (if rowOf la = 3 then 0 else la % 32) n ∧ x.len = len ∧ x.t0 = s.clock ∧
        u.xferNext = (s.xferNext + 1) % 2 ^ 32 ∧ u = { s with xfers := u.xfers, xferNext := u.xferNext, rte := u.rte }) ∧
      (∃ u x, exec (.store c a bytes) s = .next u ∧ tget u.xfers s.xferNext = some x ∧ x.owner = .store ∧
        x.len = len ∧ x.t0 = s.clock ∧ u.xferNext = (s.xferNext + 1) % 2 ^ 32 ∧ (x.after = [] ↔ x.held = []) ∧
        u = { s with xfers := u.xfers, xferNext := u.xferNext, rte := u.rte }))

/-- A register write that fails its checks completes with its status and changes nothing. Of those that pass: a write
of AG_BASE sets its field and no other register, a write of TILE_STAT clears the sticky bits that it writes as ones
and keeps the others, and a write of TILE_ID changes nothing. A read of the corrected-error counter of a stack answers
count and SAT and clears both. (R15, R33, R34, R69, R435) -/
def Obligations.RegAccess : Prop :=
  ∀ (s : State) (c : Src) (t n h v : Nat), s.live = true → t < 144 → n < 3 → h < 12 → v < 2 ^ 64 →
    (∀ a size, a < 2 ^ 40 → s.regStatus (askSrc c) a size true ≠ 0 →
      exec (.regWrite c a size v) s =
        .next { s with out := s.out ++ [.compl (s.regStatus (askSrc c) a size true) []] }) ∧
    (s.accepts c (agBase t n + 8) 8 → s.awake (packOf t) →
      ∃ u, exec (.regWrite c (agBase t n + 8) 8 v) s = .next u ∧ u.rd (agBase t n) AG_BASE.BASE = v % 2 ^ 22 ∧
        regsBut s u [fkey (agBase t n) AG_BASE.BASE] ∧ u = { s with regs := u.regs, out := s.out ++ [.compl 0 []] }) ∧
    (s.accepts c (tileBase t + 0x10) 8 → s.awake (packOf t) →
      ∃ u, exec (.regWrite c (tileBase t + 0x10) 8 v) s = .next u ∧
        (∀ f, (f, f.lo) ∈ [(TILE_STAT.BANK_CONFLICT, 0), (TILE_STAT.ALIGN, 1), (TILE_STAT.AG_UNDER, 2), (TILE_STAT.NO_LOWBIT, 3)] →
          u.rd (tileBase t) f = (if bitAt v f.lo then 0 else s.rd (tileBase t) f)) ∧
        u.rd (tileBase t) TILE_STAT.REPLAY_ACTIVE = s.rd (tileBase t) TILE_STAT.REPLAY_ACTIVE ∧
        u = { s with regs := u.regs, out := s.out ++ [.compl 0 []] }) ∧
    (s.accepts c (tileBase t) 8 → s.awake (packOf t) →
      exec (.regWrite c (tileBase t) 8 v) s = .next { s with out := s.out ++ [.compl 0 []] }) ∧
    (s.admits c (hbmcBase h + 0x30) 8 →
      ∃ u, exec (.regReadClear c (hbmcBase h + 0x30) 8) s = .next u ∧
        u.out = s.out ++ [.compl 0 (leBytes 8 (s.rd (hbmcBase h) HBMC_CE_COUNT.COUNT +
          s.rd (hbmcBase h) HBMC_CE_COUNT.SAT * 2 ^ 63))] ∧
        u.rd (hbmcBase h) HBMC_CE_COUNT.COUNT = 0 ∧ u.rd (hbmcBase h) HBMC_CE_COUNT.SAT = 0 ∧
        regsBut s u [fkey (hbmcBase h) HBMC_CE_COUNT.COUNT, fkey (hbmcBase h) HBMC_CE_COUNT.SAT] ∧
        u = { s with regs := u.regs, out := u.out })

/-- A read or write whose source may not reach the sector completes with its status and changes nothing. Of a source
that may: a read of a sector that is stored and delivered right answers its 32 bytes and changes nothing else; a read
whose burst has errors that the code finds uncorrectable completes with MEM_UE and no data, counts in HBMC_UE_COUNT or
sets its SAT at the maximum, and leaves memory outside event records as it was. A read whose burst has errors that the
code corrects answers the corrected bytes: with every corrected symbol on marked pins nothing else changes; otherwise
it counts in HBMC_CE_COUNT or sets its SAT, adds 1 to the count of each corrected pin, which stops at 0xFFFF, fills an
empty log with the sector, and, when it can raise no event, writes the corrected sector back and changes no other
memory. A write of part of a sector merges into what such a read delivers, and of a part of an uncorrectable one
completes with MEM_UE, counts it, and leaves memory outside event records as it was. A write within one sector, whole
or into a sector stored right, stores its bytes with a new code, may set a counter under R424, and completes with OK.
(R251, R255, R256, R262, R263, R264, R265, R276) -/
def Obligations.HbmSectors : Prop :=
  ∀ (s : State) (c : Src), s.live = true →
    (∀ sector upset, sector < 12 * 2 ^ 31 → s.partStatus c (sector * 32) 32 ≠ 0 →
      exec (.hbmRead { c := c, n := sector } upset) s =
        .next { s with out := s.out ++ [.compl (s.partStatus c (sector * 32) 32) []] }) ∧
    (∀ sector, sector < 12 * 2 ^ 31 → s.partStatus c (sector * 32) 32 = 0 → tget s.herr sector = none →
      exec (.hbmRead { c := c, n := sector } []) s =
        .next { s with out := s.out ++ [.compl 0 (mread s.mem (sector * 32) 32)] }) ∧
    (∀ sector upset, sector < 12 * 2 ^ 31 → s.partStatus c (sector * 32) 32 = 0 →
      let p := s.hbmPlace (sector * 32)
      let pos := p.2.2.1 * 8 + p.2.2.2
      let b := hbmcBase p.1
      let e := s.burstErr p.1 p.2.1 pos sector upset
      p.1 < 12 → e ≠ [] → rsDecode (s.erasures p.1 p.2.1 pos) (wordAdd (s.codeword p.1 sector) e) = none →
      ∃ u l, exec (.hbmRead { c := c, n := sector } upset) s = .next u ∧ u.out = l ++ [.compl stMemUe []] ∧
        (s.rd b HBMC_UE_COUNT.COUNT < 2 ^ 48 - 1 →
          u.rd b HBMC_UE_COUNT.COUNT = s.rd b HBMC_UE_COUNT.COUNT + 1) ∧
        (s.rd b HBMC_UE_COUNT.COUNT = 2 ^ 48 - 1 →
          u.rd b HBMC_UE_COUNT.COUNT = 2 ^ 48 - 1 ∧ u.rd b HBMC_UE_COUNT.SAT = 1) ∧
        memButEv s u (s.stackPart p.1)) ∧
    (∀ sector upset fix, sector < 12 * 2 ^ 31 → s.partStatus c (sector * 32) 32 = 0 →
      let p := s.hbmPlace (sector * 32)
      let pc := p.2.1
      let pos := p.2.2.1 * 8 + p.2.2.2
      let b := hbmcBase p.1
      let e := s.burstErr p.1 pc pos sector upset
      let er := s.erasures p.1 pc pos
      let w := wordAdd (s.codeword p.1 sector) e
      let data := if (fix.foldl errAdd e).isEmpty then mread s.mem (sector * 32) 32
        else xtsDec (s.xtsKey p.1) sector ((wordAdd w fix).take 32)
      p.1 < 12 → pc < 32 → e ≠ [] → rsDecode er w = some fix →
      ((∀ kv ∈ fix, kv.1 ∈ er) →
        exec (.hbmRead { c := c, n := sector } upset) s = .next { s with out := s.out ++ [.compl 0 data] }) ∧
      ((∃ kv ∈ fix, kv.1 ∉ er) →
        let pins := fix.map (fun kv => if s.spareUsed p.1 pc pos && kv.1 == s.rd b (HBMC_REMAP.SPIN pc) then 36 else kv.1)
        ∃ u l, exec (.hbmRead { c := c, n := sector } upset) s = .next u ∧ u.out = l ++ [.compl 0 data] ∧
          (s.rd b HBMC_CE_COUNT.COUNT < 2 ^ 48 - 1 → u.rd b HBMC_CE_COUNT.COUNT = s.rd b HBMC_CE_COUNT.COUNT + 1) ∧
          (s.rd b HBMC_CE_COUNT.COUNT = 2 ^ 48 - 1 →
            u.rd b HBMC_CE_COUNT.COUNT = 2 ^ 48 - 1 ∧ u.rd b HBMC_CE_COUNT.SAT = 1) ∧
          (∀ x, x < 64 →
            (pins.count x = 1 → u.rd b (HBMC_PINCNT.CNT pc x) = min 0xFFFF (s.rd b (HBMC_PINCNT.CNT pc x) + 1)) ∧
            (pins.count x = 0 → u.rd b (HBMC_PINCNT.CNT pc x) = s.rd b (HBMC_PINCNT.CNT pc x))) ∧
          (s.bit b HBMC_ELOG.VALID = false → u.bit b HBMC_ELOG.VALID = true ∧ u.rd b HBMC_ELOG.SADDR = sector % 2 ^ 35 ∧
            u.rd b HBMC_ELOG.UE = 0) ∧
          (s.bit b HBMC_CTRL.CE_EVT = false → s.bit b HBMC_CTRL.AUTO_REMAP = false →
            u.mem = mwrite s.mem (sector * 32) data ∧ u.herr = tdel s.herr sector ∧
            u = { s with regs := u.regs, mem := u.mem, herr := u.herr, out := u.out }))) ∧
    (∀ a bytes, a < 12 * 2 ^ 36 → a % 32 + bytes.length ≤ 32 → 0 < bytes.length → bytes.length < 32 →
      s.partStatus c a bytes.length = 0 →
      let sector := a / 32
      let p := s.hbmPlace (sector * 32)
      let pc := p.2.1
      let pos := p.2.2.1 * 8 + p.2.2.2
      let b := hbmcBase p.1
      let e := s.burstErr p.1 pc pos sector []
      let w := wordAdd (s.codeword p.1 sector) e
      p.1 < 12 → pc < 32 → tget s.herr sector ≠ none → e ≠ [] →
      (rsDecode (s.erasures p.1 pc pos) w = none →
        ∃ u l, exec (.hbmWrite { c := c, n := a } bytes) s = .next u ∧ u.out = l ++ [.compl stMemUe []] ∧
          (s.rd b HBMC_UE_COUNT.COUNT < 2 ^ 48 - 1 → u.rd b HBMC_UE_COUNT.COUNT = s.rd b HBMC_UE_COUNT.COUNT + 1) ∧
          memButEv s u (s.stackPart p.1)) ∧
      (∀ fix, rsDecode (s.erasures p.1 pc pos) w = some fix → s.bit b HBMC_CTRL.CE_EVT = false →
        s.bit b HBMC_CTRL.AUTO_REMAP = false →
        let data := if (fix.foldl errAdd e).isEmpty then mread s.mem (sector * 32) 32
          else xtsDec (s.xtsKey p.1) sector ((wordAdd w fix).take 32)
        ∃ u, exec (.hbmWrite { c := c, n := a } bytes) s = .next u ∧ u.out = s.out ++ [.compl 0 []] ∧
          (∀ x, mget u.mem x = mget (mwrite (mwrite s.mem (sector * 32) data) a (bytes.map (fun y => y % 256))) x) ∧
          tget u.herr sector = none)) ∧
    (∀ a bytes, a < 12 * 2 ^ 36 → a % 32 + bytes.length ≤ 32 → 0 < bytes.length →
      (s.partStatus c a bytes.length ≠ 0 →
        exec (.hbmWrite { c := c, n := a } bytes) s =
          .next { s with out := s.out ++ [.compl (s.partStatus c a bytes.length) []] }) ∧
      (s.partStatus c a bytes.length = 0 → bytes.length = 32 ∨ tget s.herr (a / 32) = none →
        ∃ u, exec (.hbmWrite { c := c, n := a } bytes) s = .next u ∧
          u.mem = mwrite s.mem a (bytes.map (fun b => b % 256)) ∧ u.herr = tdel s.herr (a / 32) ∧
          u = { s with mem := u.mem, herr := u.herr, queues := u.queues, ctrs := u.ctrs, out := s.out ++ [.compl 0 []] }))

/-- In a stack of a partition with the scrub enabled or an immediate pass running, a scrub read of a sector stored
right moves the position by one sector; after the last one it returns to 0, the passes rise by 1 and an immediate pass
ends. A write of NOW that passes its checks starts an immediate pass, from the first sector (the model's reading,
assumption 64), and keeps the other fields. A refresh step, whose effect the model takes from R275 (assumption 66),
reports the temperature, moves on to the next bank and changes no memory; without a lost symbol every sector is stored
as before. (R267, R268, R275) -/
def Obligations.Scrub : Prop :=
  ∀ (s : State) (c : Src) (h : Nat) (x : Cells), s.live = true → h < 12 → x.temp < 256 →
    let b := hbmcBase h
    let pos := s.rd b HBMC_SCRUB_STAT.POS
    let now := s.scrubNow.contains h
    (s.bit b HBMC_DOMAIN.VALID = true → s.bit b HBMC_SCRUB_CTRL.EN = true ∨ now = true →
      tget s.herr (s.sectorAt h (pos / 2 ^ 26) (pos % 2 ^ 26)) = none →
      ∃ u, exec (.scrubRead h []) s = .next u ∧ u.rd b HBMC_SCRUB_STAT.POS = (pos + 1) % 2 ^ 31 ∧
        (pos + 1 < 2 ^ 31 → regsBut s u [fkey b HBMC_SCRUB_STAT.POS] ∧ u.scrubNow = s.scrubNow) ∧
        (pos + 1 = 2 ^ 31 → u.rd b HBMC_SCRUB_STAT.PASSES = (s.rd b HBMC_SCRUB_STAT.PASSES + 1) % 2 ^ 32 ∧
          h ∉ u.scrubNow ∧ (now = true → u.rd b HBMC_SCRUB_CTRL.NOW = 0)) ∧
        u = { s with regs := u.regs, scrubNow := u.scrubNow }) ∧
    (s.accepts c (b + 0x20) 4 → s.bit b HBMC_DOMAIN.VALID = true → now = false →
      ∃ u, exec (.hbmcScrubNow c h) s = .next u ∧ u.rd b HBMC_SCRUB_CTRL.NOW = 1 ∧ u.rd b HBMC_SCRUB_STAT.POS = 0 ∧
        u.rd b HBMC_SCRUB_CTRL.EN = s.rd b HBMC_SCRUB_CTRL.EN ∧
        u.rd b HBMC_SCRUB_CTRL.PASS_MIN = s.rd b HBMC_SCRUB_CTRL.PASS_MIN ∧ u.scrubNow = s.scrubNow ++ [h] ∧
        u = { s with regs := u.regs, scrubNow := u.scrubNow, out := s.out ++ [.compl 0 []] }) ∧
    (∃ u, exec (.refresh h x) s = .next u ∧ u.rd b HBMC_STAT.TEMP = x.temp ∧ (x.lost = [] → u.herr = s.herr) ∧
      tgetD u.refresh h 0 = tgetD s.refresh h 0 + 1 ∧ regsBut s u [fkey b HBMC_STAT.TEMP] ∧
      u = { s with regs := u.regs, refresh := u.refresh, herr := u.herr })

/-- A remap request that passes its checks, for a pin below 36 that is not marked in a pseudo-channel without a used
or moving spare, marks the pin, names it in SPIN and starts the pass at the first sector; any other sets REFUSED and
starts nothing. With memory in its canonical form, a step of the pass over a sector stored right moves on by one
sector; after the last one SP carries the pin, the pass ends and the pin is no longer marked. (R269, R270, R271) -/
def Obligations.Remap : Prop :=
  ∀ (s : State) (c : Src) (h pc pin : Nat), s.live = true → h < 12 → pc < 32 → pin < 64 →
    let b := hbmcBase h
    let free := s.rd b (HBMC_REMAP.SPARED pc) = 0 ∧ s.rd b (HBMC_REMAP.BUSY pc) = 0 ∧ pin < 36 ∧ pin ∉ s.marked h pc
    let pos := tgetD s.remapPtr (h * 32 + pc) 0
    (s.accepts c (b + 0x2000 + 8 * pc) 4 → free →
      ∃ u, exec (.remapReq c h pc pin) s = .next u ∧ u.rd b (HBMC_REMAP.BUSY pc) = 1 ∧
        u.rd b (HBMC_REMAP.SPIN pc) = pin ∧ pin ∈ u.marked h pc ∧ tgetD u.remapPtr (h * 32 + pc) 1 = 0 ∧
        u.remapBusy h = true ∧
        u = { s with regs := u.regs, remapPtr := u.remapPtr, out := s.out ++ [.compl 0 []] }) ∧
    (s.accepts c (b + 0x2000 + 8 * pc) 4 → ¬ free →
      ∃ u, exec (.remapReq c h pc pin) s = .next u ∧ u.rd b (HBMC_REMAP.REFUSED pc) = 1 ∧
        u.rd b (HBMC_REMAP.BUSY pc) = s.rd b (HBMC_REMAP.BUSY pc) ∧ u.marked h pc = s.marked h pc ∧
        regsBut s u [fkey b (HBMC_REMAP.PIN pc), fkey b (HBMC_REMAP.REFUSED pc)] ∧
        u = { s with regs := u.regs, out := s.out ++ [.compl 0 []] }) ∧
    (s.sound → s.rd b (HBMC_REMAP.BUSY pc) = 1 → tget s.herr (s.sectorAt h pc pos) = none →
      ∃ u, exec (.remapPassStep h pc) s = .next u ∧
        (pos + 1 ≠ 2 ^ 26 → tgetD u.remapPtr (h * 32 + pc) 0 = pos + 1 ∧ u = { s with remapPtr := u.remapPtr }) ∧
        (pos + 1 = 2 ^ 26 → u.rd b (HBMC_REMAP.SPARED pc) = 1 ∧ u.rd b (HBMC_REMAP.BUSY pc) = 0 ∧
          s.rd b (HBMC_REMAP.SPIN pc) ∉ u.marked h pc ∧ tget u.remapPtr (h * 32 + pc) = none))

/-- On a port whose flits flow and whose mask is not changing, a good flit that carries the expected number, no null
flit and no NAK, frees the flits that it acknowledges and is held for authentication, and the next number is expected;
a flit with a bad CRC or that overlaps an uncorrectable codeword is not accepted, sets NAK and drops the held flits.
The flits of a whole authenticated frame leave the held flits and are remembered as authenticated until ACK, which is
the first number still held or the next expected one, has passed them; the payloads of its flits but pads reach the
router in order: link-local packets the queue of the port while it has room (at most 64; the model's choice,
assumption 137), other flits their virtual channel's input queue, where they stay while no route takes them out.
(R281, R283, R284, R285, R286, R292) -/
def Obligations.FlitReceived : Prop :=
  ∀ (s : State) (n : Nat) (f : Flit), s.live = true → n < 8 → s.flows n = true →
    let l := s.link n
    (l.newMask = none → f.crcOk = true → f.fecUnc = 0 → f.fecBad = false → f.isNull = false → f.nak = false → f.seq = l.rxExpect →
      f.seq ∉ l.rxAuth →
      ∃ u, exec (.flit n f) s = .next u ∧ (u.link n).rxExpect = (l.rxExpect + 1) % 2 ^ 32 ∧
        (u.link n).rxHeld = l.rxHeld ++ [f] ∧ (u.link n).rxDrop = false ∧ (u.link n).lastGood = s.clock ∧
        (u.link n).retry = l.retry.filter (fun e => !(seqLt e.2.seq f.ack)) ∧
        u = { s with regs := u.regs, links := u.links }) ∧
    (l.newMask = none → f.crcOk = false ∨ f.fecUnc ≠ 0 ∨ f.fecBad = true →
      ∃ u, exec (.flit n f) s = .next u ∧ (u.link n).nakOut = true ∧ (u.link n).rxDrop = true ∧
        (u.link n).rxExpect = l.ack ∧ (u.link n).rxHeld = [] ∧ (u.link n).retry = l.retry ∧
        u.rd (lnkBase n) LNK_CRCERR.COUNT = (s.rd (lnkBase n) LNK_CRCERR.COUNT + 1) % 2 ^ 48 ∧
        u = { s with regs := u.regs, links := u.links }) ∧
    (∀ slot, slot < 9 → l.frameHeld slot = true →
      let fl := (l.slotHeld slot).take 16
      let ps := (fl.filter (fun f => !f.pad)).map (fun f => f.payload)
      ∃ u v, exec (.frame n slot true) s = .next u ∧ v = { s with links := v.links } ∧
        (∀ m, m < 8 → m ≠ n → v.link m = s.link m) ∧
        (v.link n).rxHeld = l.rxHeld.filter (fun f => !(fl.any (fun g => g.seq == f.seq))) ∧
        (v.link n).rxExpect = l.rxExpect ∧
        (v.link n).ack = (match (v.link n).rxHeld with | f :: _ => f.seq | [] => l.rxExpect) ∧
        (∀ q, q ∈ (v.link n).rxAuth ↔ (q ∈ l.rxAuth ∨ ∃ g ∈ fl, g.seq = q) ∧ seqLt q (v.link n).ack = false) ∧
        (v.link n).retry = l.retry ∧ (v.link n).txSeq = l.txSeq ∧
        u = forEach ps v (fun s p => passPayload s n p) ∧
        (∀ hs, (∀ p ∈ ps, p.vc = 31) → ps.map (fun p => p.hdr) = hs.map some → (∀ h ∈ hs, localTyp h.typ = true) →
          (tgetD s.rte.llq n []).length + hs.length ≤ 64 →
          tgetD u.rte.llq n [] = tgetD s.rte.llq n [] ++ hs ∧ u = { v with rte := { s.rte with llq := u.rte.llq } }) ∧
        (∀ vc, vc < 21 → (∀ p ∈ ps, p.vc = vc) → (∀ r, tget s.rte.route (vcKey n vc) = some r → r.port < 8) →
          tgetD u.rte.inq (vcKey n vc) [] = tgetD s.rte.inq (vcKey n vc) [] ++ ps ∧
          u = { v with rte := { s.rte with inq := u.rte.inq, rxPkt := u.rte.rxPkt } }))

/-- While flits flow, a port with a notice that its last flit time did not send, or that is not resending and whose
retry buffer is full or that has nothing ready, sends a null flit with the next sequence number and its notice, and
keeps the number (that such flits alternate with others is the model's choice, assumption 127); a rewind resends the
flit that it has reached with its original header but for ACK and NAK; a link-local packet that is due goes out in
slot 8 with a number of its own. Each flit goes out sealed with its CRC. When a frame has been open for PAD_NCLK and
the retry buffer has room, pad flits complete it, and its flits then hold the bytes of the frame's tag (the model's
choice of when they show it, assumption 135). (R282, R284, R286, R287, R290, R291, R298, R322, R329) -/
def Obligations.FlitSent : Prop :=
  ∀ (s : State) (n : Nat), s.live = true → n < 8 → s.flows n = true →
    let l := s.link n
    let told := l.noticeOut = .none ∨ l.noticed = true
    (∀ q t f, told → l.rewind = some q → l.retry.find? (fun e => e.2.seq == q) = some (t, f) →
      ∃ u, exec (.flitTime n) s = .next u ∧
        u.out = s.out ++ [.flit n (s.seal n { f with ack := l.ack, nak := l.nakOut })] ∧
        (u.link n).retry = l.retry ∧ (u.link n).txSeq = l.txSeq ∧ (u.link n).nakOut = false ∧
        u = { s with links := u.links, out := u.out }) ∧
    (¬ told ∨ (l.rewind = none ∧ (l.full = true ∨
        (l.llOut = [] ∧ chooseFlit (s.setL n { l with llGap := min 8 (l.llGap + 1), noticed := false }) n = none))) →
      ∃ u, exec (.flitTime n) s = .next u ∧
        u.out = s.out ++ [.flit n
          (s.seal n { seq := l.txSeq, ack := l.ack, nak := l.nakOut, isNull := true, linkNotice := l.noticeOut })] ∧
        (u.link n).txSeq = l.txSeq ∧ (u.link n).retry = l.retry ∧ (u.link n).noticed = true ∧
        u = { s with links := u.links, out := u.out }) ∧
    (∀ p rest, told → l.rewind = none → l.full = false → l.llOut = p :: rest → 8 ≤ l.llGap → s.slotFree n 8 = true →
      ∃ u f, exec (.flitTime n) s = .next u ∧ u.out.getLast? = some (.flit n f) ∧ u.out.length = s.out.length + 1 ∧ f.slot = 8 ∧
        f.seq = l.txSeq ∧ f.ack = l.ack ∧ f.nak = l.nakOut ∧ f.fpos = (l.slot 8).fpos ∧ f.payload.hdr = some p ∧
        (u.link n).llOut = rest ∧ (u.link n).txSeq = (l.txSeq + 1) % 2 ^ 32 ∧
        (u.link n).retry.getLast? = some (s.clock, f) ∧ (u.link n).retry.length = l.retry.length + 1 ∧
        ((l.slot 8).fpos ≠ 15 → u.out = s.out ++ [.flit n f] ∧ (u.link n).retry = l.retry ++ [(s.clock, f)]) ∧
        u = { s with regs := u.regs, links := u.links, out := u.out }) ∧
    (∀ k, k < 9 → (l.slot k).fpos ≠ 0 → (l.slot k).fpos < 16 → l.retry.length + 16 ≤ 2048 →
      (l.slot k).opened + max 1 (s.rd (lnkBase n) LNK_CTRL.PAD_NCLK) ≤ s.nclk →
      ∃ u, exec (.pad n k) s = .next u ∧ ((u.link n).slot k).fpos = 0 ∧
        (u.link n).retry.length = l.retry.length + (16 - (l.slot k).fpos) ∧
        u.out.length = s.out.length + (16 - (l.slot k).fpos) ∧
        u.rd (lnkBase n) (LNK_FCNT.COUNT k) = (s.rd (lnkBase n) (LNK_FCNT.COUNT k) + 1) % 2 ^ 49 ∧
        (let cnt := s.rd (lnkBase n) (LNK_FCNT.COUNT k)
         let kph := s.rd (lnkBase n) (LNK_FCNT.KPH k)
         let mine := fun (e : Nat × Flit) => e.2.slot = k ∧ e.2.kph = kph ∧ e.2.frame = cnt
         (∀ e ∈ l.retry, mine e → e.2.tagOpen = true) →
           let fl := ((u.link n).retry.filter (fun e => decide (mine e))).map (fun e => e.2)
           ∀ e ∈ (u.link n).retry, mine e → e.2.tagOpen = false ∧ u.seal n e.2 = e.2 ∧
             e.2.tagb = (frameTag (tgetD l.keys (9 * kph + k) 0) (linkId s.coord n k) cnt fl).getD e.2.fpos 0) ∧
        u = { s with regs := u.regs, links := u.links, out := u.out })

/-- A link that carries flits fails with ACK_TIMEOUT when its oldest unacknowledged flit has waited 5 µs while good
flits arrive, with NO_SIGNAL after 5 µs without a good flit, and with AUTH when a frame's tag is wrong; a training
state fails with NO_SIGNAL on loss of signal and with TRAIN_TIMEOUT after its limit; an active direction whose lanes
no longer make a width fails with WIDTH. Each goes to BACKOFF. (R288, R292, R298, R300, R311, R312, R559) -/
def Obligations.LinkFails : Prop :=
  ∀ (s : State) (n : Nat), s.live = true → n < 8 →
    let l := s.link n
    (∀ t f r, s.flows n = true → l.retry = (t, f) :: r → t + usUnits 5 ≤ s.clock → s.silent n = false →
      ∃ u, exec (.ackTimeout n) s = .next u ∧ LinkFailed s u n rsAckTimeout ∧ linkOnly s u) ∧
    (s.flows n = true → s.silent n = true →
      ∃ u, exec (.noSignal n) s = .next u ∧ LinkFailed s u n rsNoSignal ∧ linkOnly s u) ∧
    (s.flows n = false → s.training n = true →
      ∃ u, exec (.noSignal n) s = .next u ∧ LinkFailed s u n rsNoSignal ∧ linkOnly s u) ∧
    (∀ slot, slot < 9 → s.flows n = true → l.frameHeld slot = true →
      ∃ u, exec (.frame n slot false) s = .next u ∧ LinkFailed s u n rsAuth ∧ linkOnly s u) ∧
    (s.training n = true →
      l.entered + usUnits (trainLimit (s.lkState n)) < s.clock ∨ l.trainStart + usUnits 200000 < s.clock →
      ∃ u, exec (.trainTimeout n) s = .next u ∧ LinkFailed s u n rsTrain ∧ linkOnly s u) ∧
    (∀ lane, lane < 12 → s.lanesOn n = true → bitAt (s.rd (lnkBase n) LNK_STAT.RXMASK) lane = true →
      chooseMask (if bitAt l.good lane then l.good - 2 ^ lane else l.good) (s.rd (lnkBase n) LNK_CFG.MAXW) = none →
      ∃ u, exec (.laneBad n lane) s = .next u ∧ LinkFailed s u n rsWidth ∧ linkOnly s u)

/-- From IDENT to ACTIVE, a bad lane of the active mask leaves the receiver changing to the mask of R297 from the
lanes that stay good, with a DEGRADE notice and DEGRADED set; a DEGRADE or RESTORE notice with a legal mask makes the
sender use it; on an ACTIVE link a wider mask that has become possible, with AUTO_RESTORE and link level 2, is asked
for with a RESTORE notice; and once the receiver has deskewed, its mask and width are the new ones and it asks for a
rewind. (R297, R298, R299) -/
def Obligations.LaneMasks : Prop :=
  ∀ (s : State) (n m : Nat), s.live = true → n < 8 → s.lanesOn n = true →
    let b := lnkBase n
    let l := s.link n
    (∀ lane, lane < 12 → bitAt (s.rd b LNK_STAT.RXMASK) lane = true →
      chooseMask (if bitAt l.good lane then l.good - 2 ^ lane else l.good) (s.rd b LNK_CFG.MAXW) = some m →
      ∃ u, exec (.laneBad n lane) s = .next u ∧ (u.link n).newMask = some m ∧ (u.link n).noticeOut = .degrade m ∧
        u.rd b LNK_STAT.DEGRADED = 1 ∧ regsButEv s u [fkey b LNK_STAT.DEGRADED] ∧ memButEv s u none ∧ linkOnly s u) ∧
    (∀ c, c ∈ [Instr.degradeNotice, Instr.restoreNotice] → m < 4096 → widthCode m ≠ 0 →
      ∃ u, exec (c n m) s = .next u ∧ u.rd b LNK_STAT.TXMASK = m ∧ u.rd b LNK_STAT.TXW = widthCode m ∧
        regsBut s u [fkey b LNK_STAT.TXMASK, fkey b LNK_STAT.TXW] ∧ u = { s with regs := u.regs }) ∧
    (∀ lanes, s.lkState n = lkACTIVE → s.bit b LNK_CTRL.AUTO_RESTORE = true → 2 ≤ s.rd b LNK_LEVEL.ALINK → l.newMask = none →
      chooseMask (l.good ||| lanes % 4096) (s.rd b LNK_CFG.MAXW) = some m →
      popCount (s.rd b LNK_STAT.RXMASK) < popCount m →
      ∃ u, exec (.restorePossible n lanes) s = .next u ∧
        u.link n = { l with good := l.good ||| lanes % 4096, newMask := some m, noticeOut := .restore m, noticed := false } ∧
        u = { s with links := u.links }) ∧
    (l.newMask = some m → m < 4096 →
      ∃ u, exec (.receiverDeskew n) s = .next u ∧ u.rd b LNK_STAT.RXMASK = m ∧ u.rd b LNK_STAT.RXW = widthCode m ∧
        u.link n = { l with nakOut := true, rxExpect := l.ack, rxHeld := [], newMask := none, noticeOut := .none } ∧
        regsBut s u [fkey b LNK_STAT.RXMASK, fkey b LNK_STAT.RXW] ∧ u = { s with regs := u.regs, links := u.links })

/-- Signal takes DETECT to PHY_TRAIN, the end of equalisation to ALIGN with the hop count, the end of alignment to
IDENT with the receive mask of R297 and the peer's transmit mask, and the port's own identity record goes out; an
identity record of format 1 that passes every check takes it to AUTH with the agreed levels and the effective
direction, and Kennel begins its part of the key exchange; a peer's part that has come and holds takes it to CONFIRM
with receive numbers, frame counters and key phases at 0 and one slot-8 frame sent; and an authenticated slot-8 frame
in each direction to ACTIVE, with the port up in the router's map, where a rekey that LNK_REKEY.REQ still asks for
starts. A peer with the device's own coordinate holds the link with LOOP, and a failed authentication with AUTH_FAIL.
(R284, R293, R294, R297, R300, R302, R303, R304, R305, R306, R309, R438) -/
def Obligations.Training : Prop :=
  ∀ (s : State) (n : Nat), s.live = true → n < 8 →
    let b := lnkBase n
    (s.lkState n = lkDETECT → ∃ u, exec (.signalDetect n) s = .next u ∧ u.lkState n = lkPHY ∧
      (u.link n).trainStart = s.clock ∧ regsBut s u [fkey b LNK_STAT.STATE] ∧
      u = { s with regs := u.regs, links := u.links }) ∧
    (∀ hops, hops < 8 → s.lkState n = lkPHY → ∃ u, exec (.phyTrainDone n hops) s = .next u ∧ u.lkState n = lkALIGN ∧
      u.rd b LNK_STAT.HOPS = hops ∧ (u.link n).hops = some hops ∧
      ((s.link n).hops = none ∨ (s.link n).hops = some hops → u.rd b LNK_STAT.REASON = s.rd b LNK_STAT.REASON) ∧
      regsBut s u [fkey b LNK_STAT.STATE, fkey b LNK_STAT.HOPS, fkey b LNK_STAT.REASON] ∧
      u = { s with regs := u.regs, links := u.links }) ∧
    (∀ good tx m, s.lkState n = lkALIGN → chooseMask (good % 4096) (s.rd b LNK_CFG.MAXW) = some m → tx < 4096 →
      ∃ u, exec (.alignDone n good tx) s = .next u ∧ u.lkState n = lkIDENT ∧ u.rd b LNK_STAT.RXMASK = m ∧
        u.rd b LNK_STAT.RXW = widthCode m ∧ u.rd b LNK_STAT.TXMASK = tx ∧ u.rd b LNK_STAT.TXW = widthCode tx ∧
        u = { s with regs := u.regs, links := u.links, out := s.out ++ [.ident n (s.identBytes n)] }) ∧
    (∀ bytes, s.lkState n = lkIDENT → (∀ x ∈ bytes, x < 256) → leNat (slice bytes 0 4) = 1 →
      let r := identOf bytes
      let a := s.rd b LNK_CFG.AXIS
      (r.coord = s.coord → ∃ u, exec (.identityRecord n bytes) s = .next u ∧ u.lkState n = lkHELD ∧
        u.rd b LNK_STAT.REASON = rsLoop ∧ linkOnly s u) ∧
      (∀ e, r.coord ≠ s.coord → setCoordOn r.coord a 0 = setCoordOn s.coord a 0 → r.logical % 4 = a →
        s.orient n r = some e → r.link ≤ s.rd b LNK_LEVEL.LINK + 1 → s.rd b LNK_LEVEL.LINK ≤ r.link + 1 →
        r.coll ≤ s.rd b LNK_LEVEL.COLL + 1 → s.rd b LNK_LEVEL.COLL ≤ r.coll + 1 → s.bit knlBase KNL_STATE.DEBUG = false →
        ∃ u, exec (.identityRecord n bytes) s = .next u ∧ u.lkState n = lkAUTH ∧ u.rd b LNK_PEER.COORD = r.coord ∧
          u.rd b LNK_STAT.EDIR = e ∧ u.rd b LNK_LEVEL.ALINK = min (s.rd b LNK_LEVEL.LINK) r.link ∧
          u.rd b LNK_LEVEL.ACOLL = min (s.rd b LNK_LEVEL.COLL) r.coll ∧ (u.link n).kx.isSome = true ∧
          linkOnly s { u with kn := s.kn })) ∧
    (s.lkState n = lkAUTH →
      (∀ x, (s.link n).kx = some x → x.full = true → x.good (s.link n).peer = true →
        ∃ u, exec (.authDone n true) s = .next u ∧ u.lkState n = lkCONFIRM ∧ (u.link n).txSeq = 16 ∧
          (u.link n).rxExpect = 0 ∧ u.rd b (LNK_FCNT.COUNT 8) = 1 ∧ u.out.length = s.out.length + 16 ∧
          (∀ k, k < 8 → u.rd b (LNK_FCNT.COUNT k) = 0) ∧ (∀ k, k < 9 → u.rd b (LNK_FCNT.KPH k) = 0) ∧
          (u.link n).keyGen = (s.link n).keyGen + 1 ∧ u = { s with regs := u.regs, links := u.links, out := u.out }) ∧
      (∃ u, exec (.authDone n false) s = .next u ∧ u.lkState n = lkHELD ∧ u.rd b LNK_STAT.REASON = rsAuthFail ∧
        linkOnly s u)) ∧
    (s.lkState n = lkCONFIRM → (s.link n).confirmed = true →
      ∃ u, exec (.confirmDone n) s = .next u ∧ u.lkState n = lkACTIVE ∧
        (u.link n).lastGood = (s.link n).lastGood ∧ u.portUp n = true ∧ linkOnly s { u with kn := s.kn } ∧
        (s.rd b LNK_REKEY.REQ = 0 → u.kn = s.kn ∧ u.rd b LNK_REKEY.BUSY = s.rd b LNK_REKEY.BUSY) ∧
        (s.rd b LNK_REKEY.REQ = 1 → s.rd b LNK_REKEY.BUSY = 0 → u.rd b LNK_REKEY.BUSY = 1 ∧ u.rd b LNK_REKEY.REQ = 0 ∧
          (u.link n).kx.isSome = true ∧ u.kn = { s.kn with drbg := s.kn.drbg + 2 }))

/-- The end of a BACKOFF wait, the return of signal to a held link after 2 s and a write of RETRAIN that passes its
checks take an enabled port to DETECT, the last one from any state but DISABLED and with reason HOST; 10 s in ACTIVE
set the backoff to 1 ms; a write of DISABLE takes the port to DISABLED, and its clearing an enabled port to DETECT.
PORTS_READY opens the through-paths of a device with its coordinate once a base image is applied. (R300, R307, R308,
R310, R311) -/
def Obligations.LinkReturns : Prop :=
  ∀ (s : State) (c : Src) (n : Nat), s.live = true → n < 8 →
    let b := lnkBase n
    (s.portOn n = true → s.lkState n = lkBACKOFF → (s.link n).entered + usUnits (1000 * (s.link n).wait) ≤ s.clock →
      ∃ u, exec (.backoffExpiry n) s = .next u ∧ u.lkState n = lkDETECT ∧ (u.link n).backoff = (s.link n).backoff ∧
        u = { s with regs := u.regs, links := u.links }) ∧
    (s.lkState n = lkACTIVE → (s.link n).entered + usUnits 10000000 ≤ s.clock →
      ∃ u, exec (.active10s n) s = .next u ∧ u.link n = { s.link n with backoff := 1 } ∧ u = { s with links := u.links }) ∧
    (∀ ms, s.portOn n = true → s.lkState n = lkHELD → 2000 ≤ ms →
      ∃ u, exec (.heldSignalReturn n ms) s = .next u ∧ u.lkState n = lkDETECT ∧ u = { s with regs := u.regs, links := u.links }) ∧
    (s.portOn n = true → s.accepts c (b + 0x18) 4 → s.lkState n ≠ lkDISABLED →
      ∃ u, exec (.retrain c n) s = .next u ∧ u.lkState n = lkDETECT ∧ u.rd b LNK_CTRL.RETRAIN = 0 ∧
        (s.lkState n ≠ lkHELD → u.rd b LNK_STAT.REASON = rsHost) ∧ linkOnly s u) ∧
    (s.accepts c (b + 0x18) 4 → s.rd b LNK_CTRL.DISABLE = 0 →
      ∃ u, exec (.disable c n 1) s = .next u ∧ u.lkState n = lkDISABLED ∧ u.rd b LNK_CTRL.DISABLE = 1 ∧ linkOnly s u) ∧
    (s.accepts c (b + 0x18) 4 → s.rd b LNK_CTRL.DISABLE = 1 → s.lkState n = lkDISABLED → s.bit b LNK_CFG.EN = true →
      s.bit b LNK_COORD.VALID = true →
      ∃ u, exec (.disable c n 0) s = .next u ∧ u.lkState n = lkDETECT ∧ u.rd b LNK_CTRL.DISABLE = 0 ∧ linkOnly s u) ∧
    (s.bit (lnkBase 0) LNK_COORD.VALID = true → s.bit shapeBase SHAPE_STAT.LOADED = true →
      ∃ u, exec .portsReady s = .next u ∧ u.rd shpBase SHP_TPSTAT.CLOSED = 0 ∧ u.rd shpBase SHP_TPSTAT.READY = 1 ∧
        regsBut s u [fkey shpBase SHP_TPSTAT.CLOSED, fkey shpBase SHP_TPSTAT.READY] ∧ u = { s with regs := u.regs })

/-- On an ACTIVE link without a rekey, a write of LNK_REKEY.REQ that passes its checks, a frame counter at the
threshold and a key-exchange message of the peer each start a rekey: BUSY is set, Kennel draws a nonce and an
ephemeral key, and the packets of this end's message are to be sent, which opens the exchange or answers the peer's
(the kind byte, the count of packets after this one and the layout of the message are the model's choice, assumption
110); during a rekey another request changes neither. The peer's message and signature are taken with their last
packets; with the message, this end learns whether it leads, and it signs while its wrapped keys can be opened. When
the peer's part has come and holds, with the identity key of the training and a chain that leads to the root, the
rekey completes: BUSY clears, COUNT rises by 1 up to its maximum (the model's reading, assumption 54) and every slot
changes its key phase at its next frame; a peer's part that fails its checks holds the link with AUTH_FAIL. A slot
whose frame counter is at 2^48 with no new phase reports the first stall of the rekey. (R294, R295, R296, R314, R438) -/
def Obligations.Rekeys : Prop :=
  ∀ (s : State) (c : Src) (n : Nat) (p : Pkt), s.live = true → n < 8 → s.lkState n = lkACTIVE →
    let b := lnkBase n
    let l := s.link n
    let mine := fun (kind : Nat) =>
      ({ opened := kind == 1, nonce := drbgAt s.kn.drbg % 2 ^ 256, eph := drbgAt (s.kn.drbg + 1) } : Kx)
    let sent := fun (kind : Nat) (bytes : List Nat) =>
      (keyxBodies kind bytes).map (fun body => ({ typ := tKEYX, src := s.router, last := true, body := body } : Pkt))
    let started := fun (u : State) => u.rd b LNK_REKEY.BUSY = 1 ∧ u.rd b LNK_REKEY.REQ = 0 ∧
      u.rd b LNK_REKEY.THR_LOG2 = s.rd b LNK_REKEY.THR_LOG2 ∧ u.kn = { s.kn with drbg := s.kn.drbg + 2 }
    let opened := fun (u : State) => started u ∧ (u.link n).kx = some (mine 1) ∧
      (u.link n).llOut = l.llOut ++ sent 1 (s.kxMsg (mine 1))
    let kind := p.body.getD 0 0
    let part := p.body.drop 3
    let last := leNat (slice p.body 1 2) = 0
    let signs := fun (x : Kx) => if s.kn.kwk then
        sent 3 (beBytes 384 (Config.identitySign s.ident.uid (beNat (sha256 (x.signed (s.identBytes n))))))
      else []
    (s.rd b LNK_REKEY.BUSY = 0 →
      (s.accepts c (b + 0x40) 4 → ∃ u, exec (.rekeyReq c n) s = .next u ∧ opened u ∧
        u = { s with regs := u.regs, links := u.links, kn := u.kn, out := s.out ++ [.compl 0 []] }) ∧
      (∀ k, k < 9 → 2 ^ s.rekeyThr n ≤ s.rd b (LNK_FCNT.COUNT k) →
        ∃ u, exec (.rekeyThreshold n) s = .next u ∧ opened u ∧
          u = { s with regs := u.regs, links := u.links, kn := u.kn }) ∧
      (l.kx = none → kind ≠ 3 →
        (¬ last → ∃ u, exec (.keyx n p) s = .next u ∧ started u ∧ (u.link n).kx = some { mine 2 with msgIn := part } ∧
          (u.link n).llOut = l.llOut ++ sent 2 (s.kxMsg (mine 2)) ∧
          u = { s with regs := u.regs, links := u.links, kn := u.kn, rte := u.rte }) ∧
        (last → ∃ u x, exec (.keyx n p) s = .next u ∧ started u ∧ (u.link n).kx = some x ∧
          x = { mine 2 with msg := part, lead := kind == 2 } ∧
          (u.link n).llOut = l.llOut ++ sent 2 (s.kxMsg (mine 2)) ++ signs x ∧
          u = { s with regs := u.regs, links := u.links, kn := u.kn, rte := u.rte }))) ∧
    (∀ x, l.kx = some x →
      (kind = 3 → ∃ u, exec (.keyx n p) s = .next u ∧ u = { s with links := u.links, rte := u.rte } ∧
        (last → u.link n = { l with kx := some { x with sig := x.sigIn ++ part, sigIn := [] } }) ∧
        (¬ last → u.link n = { l with kx := some { x with sigIn := x.sigIn ++ part } })) ∧
      (kind ≠ 3 → x.msg = [] → ∃ u, exec (.keyx n p) s = .next u ∧ u = { s with links := u.links, rte := u.rte } ∧
        (¬ last → u.link n = { l with kx := some { x with msgIn := x.msgIn ++ part } }) ∧
        (last → ∃ y, y = { x with msg := x.msgIn ++ part, msgIn := [], lead := kind == 2 || (x.opened && decide (s.router < p.src)) } ∧
          u.link n = { l with kx := some y, llOut := l.llOut ++ signs y }))) ∧
    (s.rd b LNK_REKEY.BUSY = 1 →
      (s.accepts c (b + 0x40) 4 → ∃ u, exec (.rekeyReq c n) s = .next u ∧ u.rd b LNK_REKEY.BUSY = 1 ∧
        u.rd b LNK_REKEY.REQ = 0 ∧ u = { s with regs := u.regs, out := s.out ++ [.compl 0 []] }) ∧
      (∀ x, l.kx = some x → x.full = true →
        let chain := x.peerChain = l.peerChain ∨ Config.chainHolds (caereoDigest Config.rootKey) x.peerChain = true
        (x.good l.peer = true → x.peerKey = l.peerKey → chain →
          ∃ u, exec (.rekeyDone n) s = .next u ∧ u.rd b LNK_REKEY.BUSY = 0 ∧
            u.rd b LNK_REKEY.COUNT = min (2 ^ 32 - 1) (s.rd b LNK_REKEY.COUNT + 1) ∧
            (u.link n).keyGen = l.keyGen + 1 ∧ (u.link n).phase = 1 - l.phase ∧ (u.link n).kx = none ∧
            (∀ k, k < 9 → (u.link n).slot k = { l.slot k with switch := true } ∧
              tgetD (u.link n).keys (9 * (1 - l.phase) + k) 0 = x.key (linkId s.coord n k)) ∧
            regsBut s u [fkey b LNK_REKEY.BUSY, fkey b LNK_REKEY.COUNT] ∧ u = { s with regs := u.regs, links := u.links }) ∧
        (x.good l.peer = false ∨ x.peerKey ≠ l.peerKey ∨ ¬ chain →
          ∃ u, exec (.rekeyDone n) s = .next u ∧ u.lkState n = lkHELD ∧ u.rd b LNK_STAT.REASON = rsAuthFail ∧
            linkOnly s u))) ∧
    (∀ k, k < 9 → s.rd b (LNK_FCNT.COUNT k) = 2 ^ 48 → (l.slot k).switch = false → l.stalled = false →
      ∃ u, exec (.frameCounterLimit n k) s = .next u ∧ u.rd b LNK_REKEY.STALL = 1 ∧ (u.link n).stalled = true ∧
        regsButEv s u [fkey b LNK_REKEY.STALL] ∧ memButEv s u none ∧ linkOnly s u)

/-- With every bridge in service: at its destination a packet of one flit and a known type is delivered to its unit.
On the way an adaptive packet takes, among the unfinished axes whose productive port is up, one of most credits on its
adaptive VC, or at injection its stage axis when that has a credit, with the header of the hop. A packet of 255 hops
is discarded, and the count of LOST packets rises. A packet that waited ESC_WAIT moves to the escape VC of the first
unfinished axis, or turns back there when that port is down. (R323, R324, R325, R328, R340) -/
def Obligations.Routes : Prop :=
  ∀ (s : State) (port vc : Nat) (f : Payload) (rest : List Payload) (h : Pkt), s.live = true → s.bridges = 0 → port < 9 → vc < 21 →
    let k := vcKey port vc
    tgetD s.rte.inq k [] = f :: rest → f.hdr = some h →
    let cand := fun (a d n : Nat) => a ∈ s.unfinished h ∧ ¬ (h.ssp = true ∧ h.ssax = a) ∧
      s.productive h port a = some d ∧ s.upPort a d = some n
    let takes := fun (a d n : Nat) (u : State) =>
      tget u.rte.route k = some { port := n, vc := adaptVc h a, hdr := { s.hop h a d n with inPort := 0 }, via := f.via } ∧
      u = { s with rte := { s.rte with route := u.rte.route, since := u.rte.since } }
    (tget s.rte.route k = none → tget s.rte.building k = none →
      (s.unfinished h = [] → f.tail = true → knownTyp h.typ = true →
        ∃ u, exec (.headFlit port vc) s = .next u ∧ u.rte.ejected = s.rte.ejected ++
            [{ h with data := f.data, inPort := if port < 8 then port else h.inPort }] ∧
          tgetD u.rte.inq k [] = rest ∧ tget u.rte.route k = none ∧ u = { s with rte := u.rte, links := u.links }) ∧
      (h.hops < 255 → (∀ a ∈ s.unfinished h, (s.productive h port a).isSome = true) → h.esc = false →
        ((port ≠ 8 ∨ h.axis = 0) → (∃ a d n, cand a d n) →
          ∃ u a d n, exec (.headFlit port vc) s = .next u ∧ cand a d n ∧ takes a d n u ∧
            ∀ a' d' n', cand a' d' n' → s.credits n' (adaptVc h a') ≤ s.credits n (adaptVc h a)) ∧
        (∀ a d n, port = 8 → h.axis = a + 1 → cand a d n → 0 < s.credits n (adaptVc h a) →
          ∃ u, exec (.headFlit port vc) s = .next u ∧ takes a d n u)) ∧
      (s.unfinished h ≠ [] → 255 ≤ h.hops → f.tail = true → h.typ ≠ tLOST → h.typ < 0x30 →
        ∃ u, exec (.headFlit port vc) s = .next u ∧ tget u.rte.route k = none ∧
          u.rd rteBase RTE_LOSTCNT.COUNT = (s.rd rteBase RTE_LOSTCNT.COUNT + 1) % 2 ^ 48 ∧
          regsBut s u [fkey rteBase RTE_LOSTCNT.COUNT, fkey rteBase RTE_LOSTCNT.WRAP] ∧
          u = { s with regs := u.regs, rte := u.rte, links := u.links })) ∧
    (∀ r a d n b, tget s.rte.route k = some r → r.port < 8 → r.granted = false → h.esc = false → isEsc r.vc = false →
      tgetD s.rte.since k 0 + max 1 (s.rd rteBase RTE_CTRL.ESC_WAIT) ≤ s.nclk → s.unfinished h = a :: b →
      s.productive h port a = some d →
      let h' := { h with esc := true }
      (s.upPort a d = some n →
        ∃ u, exec (.escWait port vc) s = .next u ∧
          tget u.rte.route k = some { port := n, vc := 3 * h.cls + 2, hdr := { s.hop h' a d n with inPort := 0 }, via := f.via } ∧
          u.rd rteBase RTE_ESCCNT.COUNT = (s.rd rteBase RTE_ESCCNT.COUNT + 1) % 2 ^ 48 ∧
          u = { s with regs := u.regs, rte := { s.rte with route := u.rte.route, since := u.rte.since } }) ∧
      (s.upPort a d = none → bitAt h.ut a = false → s.upPort a (1 - d) = some n →
        ∃ u, exec (.escWait port vc) s = .next u ∧
          (let h2 := s.hop { h' with ut := setBitAt h.ut a } a (1 - d) n
           tget u.rte.route k = some { port := n, vc := 3 * h.cls + 2, hdr := { h2 with inPort := 0 }, via := f.via }) ∧
          u.rd rteBase RTE_UTCNT.COUNT = (s.rd rteBase RTE_UTCNT.COUNT + 1) % 2 ^ 48 ∧
          u = { s with regs := u.regs, rte := { s.rte with route := u.rte.route, since := u.rte.since } }))

/-- With the byte places of the CREDIT, LSTATE and NOTICE bodies that the model chose (assumption 59): a CREDIT packet
lowers the count of its VC and of no other; 128 NCLK after the first pending credit the credits owed go back in one
CREDIT packet. An LSTATE notice about a link of an own ring sets or clears that link in the map and goes on around its
ring while it has hops left; a peer's map leaves the links of this device's own ports as they are, and gives a device
that joins the ring all the others, and any other device those of the peer's own ports (the model's choice, assumption
114). A NOTICE at the upstream end of a failed link ends its record, sets NOTICED, and injects the unacknowledged
packet again; without one in NOTICE_WAIT the record ends and what was discarded is counted. (R321, R334, R335, R336,
R560) -/
def Obligations.LinkPackets : Prop :=
  ∀ (s : State) (n : Nat) (p : Pkt), s.live = true → n < 8 →
    let b := p.body
    (s.hears n p = true →
      (b.getD 0 0 < 21 →
        ∃ u, exec (.credit n p) s = .next u ∧ u.usedOf n (b.getD 0 0) = s.usedOf n (b.getD 0 0) - b.getD 1 0 ∧
          (∀ j, j ≠ vcKey n (b.getD 0 0) → tgetD u.rte.used j 0 = tgetD s.rte.used j 0) ∧
          u = { s with rte := { s.rte with used := u.rte.used, llq := u.rte.llq } }) ∧
      (b.getD 0 0 = 0 → b.getD 1 0 < 3 → b.getD 3 0 = 0 →
        setCoordOn (leNat (slice b 6 3)) (b.getD 1 0) 0 = setCoordOn s.coord (b.getD 1 0) 0 →
        ∃ u, exec (.lstate n p) s = .next u ∧
          (∀ j, j < 4 → u.ringDown (b.getD 1 0) j =
            (if j = b.getD 2 0 % 4 then b.getD 4 0 == 1 else s.ringDown (b.getD 1 0) j)) ∧
          regsBut s u [fkey rteBase (ringField (b.getD 1 0))] ∧ (b.getD 5 0 = 0 → u.links = s.links) ∧
          (∀ m, 0 < b.getD 5 0 → s.portAxis n < 3 → s.portFor (s.portAxis n) (1 - s.portDir n) = some m →
            s.lkState m = lkACTIVE → (u.link m).llOut = (s.link m).llOut ++
              [{ p with src := s.endpoint 19, body := b.take 5 ++ [b.getD 5 0 - 1] ++ b.drop 6 }]) ∧
          u = { s with regs := u.regs, links := u.links, rte := u.rte }) ∧
      (b.getD 0 0 ≠ 0 → s.portAxis n < 3 →
        ∃ u, exec (.lstate n p) s = .next u ∧
          (let a := s.portAxis n
           let c := coordOn (s.rd (lnkBase n) LNK_PEER.COORD) a
           let joins := ∀ m, m < 8 → m ≠ n → s.portAxis m = a → s.portUp m = false
           ∀ j, j < 4 →
             (s.ownRing a j = true → u.ringDown a j = s.ringDown a j) ∧
             (s.ownRing a j = false → joins ∨ j = c ∨ j = (c + 3) % 4 → u.ringDown a j = bitAt (b.getD (1 + a) 0xF) j) ∧
             (¬ joins → j ≠ c → j ≠ (c + 3) % 4 → u.ringDown a j = s.ringDown a j)) ∧
          regsBut s u [fkey rteBase (ringField (s.portAxis n))] ∧ u = { s with regs := u.regs, rte := u.rte }) ∧
      (∀ fr t f hd, p.dest / 32 = s.coord → s.rte.fails.find? (fun x => x.port == b.getD 0 0) = some fr →
        fr.keys = [] → fr.buf = [(t, f)] → seqLt f.seq p.xfer = false → f.pad = false → f.slot < 8 →
        f.payload.hdr = some hd → f.payload.head = true → f.payload.tail = true →
        ∃ u, exec (.notice n p) s = .next u ∧ u.rd rteBase RTE_FAIL.NOTICED = 1 ∧ u.rd rteBase RTE_FAIL.REINJ = 1 ∧
          u.rte.fails = s.rte.fails.filter (fun x => x.port != b.getD 0 0) ∧
          (let key := 168 + 3 * hd.cls + (if hd.esc then 2 else 0)
           tgetD u.rte.inq key [] = tgetD s.rte.inq key [] ++
             [{ vc := injectVc hd, head := true, tail := true, hdr := some { hd with inPort := b.getD 0 0 } }]) ∧
          regsBut s u [fkey rteBase RTE_FAIL.NOTICED, fkey rteBase RTE_FAIL.REINJ] ∧
          u = { s with regs := u.regs, rte := u.rte })) ∧
    (∀ vc t, vc < 21 → s.lkState n = lkACTIVE → tget s.rte.owedAt (vcKey n vc) = some t → t + 128 ≤ s.nclk →
      tgetD s.rte.owed (vcKey n vc) 0 ≠ 0 →
      ∃ u, exec (.creditReturnDelay n vc) s = .next u ∧ tget u.rte.owed (vcKey n vc) = none ∧
        tget u.rte.owedAt (vcKey n vc) = none ∧
        u.link n = { s.link n with llOut := (s.link n).llOut ++
          [{ typ := tCREDIT, src := s.endpoint 19, last := true, body := [vc, tgetD s.rte.owed (vcKey n vc) 0] }] } ∧
        u = { s with links := u.links, rte := { s.rte with owed := u.rte.owed, owedAt := u.rte.owedAt } }) ∧
    (∀ fr, s.rte.fails.find? (fun x => x.port == n) = some fr → fr.keys = [] →
      fr.time + usUnits (max 1 (s.rd rteBase RTE_CTRL.NOTICE_WAIT)) ≤ s.clock →
      ∃ u, exec (.noticeWait n) s = .next u ∧ u.rte.fails = s.rte.fails.filter (fun x => x.port != n) ∧
        u.rd rteBase RTE_FAIL.DISC = (packetsOf fr.heads (fr.buf.map (·.2)) []).length % 2 ^ 12 ∧
        regsButEv s u [fkey rteBase RTE_FAIL.DISC, fkey rteBase RTE_LOSTCNT.COUNT, fkey rteBase RTE_LOSTCNT.WRAP] ∧
        memButEv s u none ∧ u = { s with regs := u.regs, rte := u.rte, mem := u.mem })

/-- Read, forward-read, write and forwarded data packets of a partition's own job domain for the scratch of one of its
awake tiles, named by that tile's pack, with every bridge in service: a read answers RD_DATA with the bytes, a forward
read sends them on as FWD_DATA, and a write stores its bytes and answers an ACK with OK and their number. One whose
Collar may not reach the partition gets an ACK with DENIED and nothing is stored. A sync packet that adds to a counter
without waits, with the index in bytes 0 and 1 of its body, the operation in byte 2 and the value in bytes 4 to 7 (the
model's choice, assumption 154), when no operation that R224 puts after it has reached the counter in the same NCLK
(assumption 108), adds the value and answers an ACK with OK. (R220, R222, R227, R317, R318, R332, R434) -/
def Obligations.PacketsServed : Prop :=
  ∀ (s : State) (p : Pkt) (t k : Nat), s.live = true → t < 144 → s.packPart (packOf t) = some k → s.bridges = 0 →
    p.src / 32 ≠ s.coord → p.len32 ≠ 1 ∨ p.bmask = 0xFFFFFFFF →
    let may := s.mayReach (.far p.inPort p.collar) k
    let inTile := s.tilePresent t = true ∧ s.awake (packOf t) ∧ p.dest % 32 = packOf t ∧
      scratchBase t ≤ p.addr ∧ 0 < p.len32 ∧ p.addr + 32 * p.len32 ≤ scratchBase t + 0x400000
    let sends := fun (u : State) (x : Pkt) =>
      let fl := flitsOf { x with tie := x.xfer % 16, itime := s.ns, inPort := 8 + packOf t }
      let key := 168 + 3 * x.cls
      tgetD u.rte.inq key [] = tgetD s.rte.inq key [] ++ fl
    let ack : Pkt := { dest := p.src, src := p.src, typ := tACK, cls := 1, xfer := p.xfer, collar := p.collar, last := p.last }
    (may = true → inTile →
      (∃ u, exec (.rd p) s = .next u ∧
        sends u { dest := p.src, src := p.src, typ := tRDDATA, cls := 3, xfer := p.xfer, collar := p.collar,
                  addr := p.addr, len32 := p.len32, last := p.last,
                  data := mread s.mem p.addr (32 * p.len32) } ∧
        u = { s with rte := u.rte }) ∧
      (p.fep / 32 ≠ s.coord → ∃ u, exec (.rdFwd p) s = .next u ∧
        sends u { dest := p.fep, src := p.src, typ := tFWDDATA, cls := 4, xfer := p.xfer, collar := p.collar,
                  addr := p.faddr, len32 := p.len32, last := p.last, data := mread s.mem p.addr (32 * p.len32) } ∧
        u = { s with rte := u.rte }) ∧
      (∀ c ∈ [Instr.wr, Instr.fwdData], p.data.length = 32 * p.len32 → s.bit (cenBase k) CEN_PCTRL.NFEN = false →
        ∃ u, exec (c p) s = .next u ∧ u.mem = mwrite s.mem p.addr p.data ∧
          sends u { ack with body := leBytes 4 (32 * p.len32) } ∧ u = { s with mem := u.mem, tiles := u.tiles, rte := u.rte })) ∧
    (may = false → inTile → p.data.length = 32 * p.len32 → ∀ c ∈ [Instr.rd, Instr.wr, Instr.rdFwd, Instr.fwdData],
      ∃ u, exec (c p) s = .next u ∧
        sends u { ack with status := stDenied, addr := p.addr, body := leBytes 4 (32 * p.len32) } ∧
        u = { s with rte := u.rte }) ∧
    (let idx := leNat (slice p.body 0 2)
     let v := leNat (slice p.body 4 4)
     may = true → p.dest % 32 = packOf t → s.inRange (packOf t) idx = true → idx < 1024 → (s.ctr (packOf t) idx).waits = [] →
      p.body.getD 2 0 = 0 → p.body.length = 8 → (∀ x ∈ p.body, x < 256) → (s.ctr (packOf t) idx).val + v < 2 ^ 32 →
      let x := s.ctrNow (packOf t) idx
      x.ops.any (fun o => decide (ctrMesh < o.1)) = false →
      ∃ u, exec (.sync p) s = .next u ∧
        u.ctr (packOf t) idx = { s.ctr (packOf t) idx with
          val := (s.ctr (packOf t) idx).val + v, now := some { x with ops := placeOp (ctrMesh, false, v) x.ops } } ∧
        sends u { ack with body := leBytes 4 4 } ∧ u = { s with ctrs := u.ctrs, rte := u.rte })

/-- An ACK, a read-data packet and a LOST packet (body byte 4 of which names the type of the discarded packet, the
model's choice, assumption 50) each account their bytes to the load or store that they name, the first error standing.
With every bridge in service, a transfer whose bytes are not all accounted stays; a load or store whose bytes are all
accounted completes with its status, and a load that succeeded with the bytes that came back. A transfer older than
XFER_TO completes with XFER_TIMEOUT. A packet for no transfer changes nothing else. (R332, R333, R336) -/
def Obligations.Accounting : Prop :=
  ∀ (s : State) (p : Pkt) (x : Xfer), s.live = true → s.bridges = 0 → tget s.xfers p.xfer = some x →
    let n := leNat (p.body.take 4)
    let typ := p.body.getD 4 0
    let ends := fun (u : State) (bytes st : Nat) (buf : Tbl (List Nat)) =>
      (x.acct + bytes < x.len →
        (∃ y, tget u.xfers p.xfer = some y ∧ y.acct = x.acct + bytes ∧ y.status = firstErr x.status st ∧
          y.len = x.len ∧ y.owner = x.owner ∧ y.t0 = x.t0 ∧ y.buf = buf) ∧
        u = { s with xfers := u.xfers, rte := u.rte }) ∧
      (x.len ≤ x.acct + bytes →
        tget u.xfers p.xfer = none ∧
        (x.owner = .store → u.out = s.out ++ [.compl (firstErr x.status st) []]) ∧
        (∀ off k, x.owner = .load off k → u.out = s.out ++ [.compl (firstErr x.status st)
          (if firstErr x.status st = 0 then ((bufBytes buf).drop off).take k else [])]) ∧
        u = { s with xfers := u.xfers, rte := u.rte, out := u.out })
    ((x.owner = .store ∨ ∃ off k, x.owner = .load off k) →
      (∃ u, exec (.ack p) s = .next u ∧ ends u n p.status x.buf) ∧
      (typ < 0x10 → ∃ u, exec (.lost p) s = .next u ∧ ends u n stLinkLost x.buf) ∧
      (∃ u, exec (.rdData p) s = .next u ∧ ends u (bytesIn p) 0 (tset x.buf (p.addr - x.src) p.data)) ∧
      (x.t0 + usUnits (1000 * max 1 (s.rd rteBase RTE_CTRL.XFER_TO)) ≤ s.clock →
        ∃ u, exec (.xferTimeout p.xfer) s = .next u ∧ tget u.xfers p.xfer = none ∧
          u = { s with xfers := u.xfers, rte := u.rte, out := s.out ++ [.compl stXferTimeout []] })) ∧
    (∀ j, tget s.xfers j = none →
      exec (.ack { p with xfer := j }) s = .next { s with rte := { s.rte with
        ejected := dropFirst s.rte.ejected { p with xfer := j } } })

/-- A sample adds one to the bin of each VC's occupancy and to no other bin. When fabric time reaches RTE_TSNAP every
counter is in the snapshot bank and SNAP_DONE is set. A request of a host port with the fabric-manager mark (the byte
places of its port, VC, bank and mark are the model's choice, assumption 59) is answered with the ten counters of its
port and VC; any other counts in RTE_BADPKT. A reply that the host port awaits places its ten values in CXLP_TELDATA
and sets DONE. (R338, R339, R481) -/
def Obligations.Telemetry : Prop :=
  ∀ (s : State) (p : Pkt), s.live = true →
    let b := p.body
    (s.rte.sampled + max 1 (s.rd rteBase RTE_TELCTRL.PERIOD) ≤ s.nclk →
      ∃ u, exec .histSample s = .next u ∧ u.rte.sampled = s.nclk ∧
        (∀ v j, v < 189 → j < 8 → u.rd rteBase (RTE_HIST.COUNT v j) =
          (if j = histBin (tgetD s.rte.inq v []).length then (s.rd rteBase (RTE_HIST.COUNT v j) + 1) % 2 ^ 48
           else s.rd rteBase (RTE_HIST.COUNT v j))) ∧
        u = { s with regs := u.regs, rte := { s.rte with sampled := s.nclk } }) ∧
    (s.rd rteBase RTE_TSNAP.TIME ≠ 0 → s.rd rteBase RTE_TSNAP.TIME ≤ s.ns → s.rte.snapAt ≠ s.rd rteBase RTE_TSNAP.TIME →
      ∃ u, exec .rteTsnap s = .next u ∧ u.rd rteBase RTE_TELCTRL.SNAP_DONE = 1 ∧
        (∀ v f, v < 189 → f ∈ telFields v → u.rd rteBase (snapField f.1) = s.rd rteBase f.1 ∧
          u.rd rteBase (snapField f.2) = s.rd rteBase f.2 ∧ u.rd rteBase f.1 = s.rd rteBase f.1) ∧
        u = { s with regs := u.regs, rte := { s.rte with snapAt := s.rd rteBase RTE_TSNAP.TIME } }) ∧
    (let asked := p.src % 32 = 16 ∧ b.getD 3 0 = 1 ∧ b.getD 0 0 ≤ 8 ∧ b.getD 1 0 < 21
     (asked → p.src / 32 ≠ s.coord →
      ∃ u x, exec (.telemRq p) s = .next u ∧ tgetD u.rte.inq 171 [] = tgetD s.rte.inq 171 [] ++ flitsOf x ∧
        x.dest = p.src ∧ x.typ = tTELRP ∧ x.xfer = p.xfer ∧ x.body.length = 80 ∧
        (b.getD 2 0 ≠ 1 → x.body.take 8 = leBytes 8 (s.rd rteBase (RTE_HIST.COUNT (vcKey (b.getD 0 0) (b.getD 1 0)) 0) +
          s.rd rteBase (RTE_HIST.WRAP (vcKey (b.getD 0 0) (b.getD 1 0)) 0) * 2 ^ 63)) ∧
        u = { s with rte := u.rte }) ∧
     (¬ asked → ∃ u, exec (.telemRq p) s = .next u ∧
        u.rd rteBase RTE_BADPKT.COUNT = (s.rd rteBase RTE_BADPKT.COUNT + 1) % 2 ^ 48 ∧
        regsBut s u [fkey rteBase RTE_BADPKT.COUNT, fkey rteBase RTE_BADPKT.WRAP] ∧
        u = { s with regs := u.regs, rte := u.rte })) ∧
    (s.telAt.isSome = true →
      ∃ u, exec (.telemRp p) s = .next u ∧ u.telAt = none ∧ u.rd cxlpBase CXLP_TELCMD.DONE = 1 ∧
        (∀ k, k < 10 → u.rd cxlpBase (CXLP_TELDATA.VALUE k) = leNat ((b.drop (8 * k)).take 8) % 2 ^ 64) ∧
        regsBut s u (fkey cxlpBase CXLP_TELCMD.DONE :: (List.range 10).map (fun k => fkey cxlpBase (CXLP_TELDATA.VALUE k))) ∧
        u = { s with regs := u.regs, telAt := none, rte := u.rte })

/-- A TIME exchange on an ACTIVE link sends a TIME packet (its body is the model's choice, assumption 59). A received
one leaves the port's queue, and four stamps give half the round trip as the port's delay; on the parent port of a
device that is no master they also give the offset (its sign is the model's reading, assumption 92): before the first
lock the counter steps by it, afterwards a small one is slewed, and one above 1 µs means HOLDOVER with its event, as
does the loss of the parent's link of a LOCKED device or (the model's reading, assumption 136) of one that is locking.
An offset that has stayed below 2 ns for 1 ms locks the device. A write of RELOCK that passes its checks sets it and
keeps the other fields; one of TRC_TSET sets a master's time before its first lock. (R419, R420, R421) -/
def Obligations.FabricTime : Prop :=
  ∀ (s : State) (c : Src) (n t1 t2 t3 t4 v : Nat), s.live = true → n < 8 → v < 2 ^ 64 →
    let i : Nat → Int := fun x => x
    let off := ((i t2 - i t1) + (i t3 - i t4)) / 2
    let dly := fkey trcBase (TRC_LINKDLY.PS n)
    let parent := s.bit trcBase TRC_TCTRL.PVALID = true ∧ s.rd trcBase TRC_TCTRL.PARENT = n ∧ s.bit trcBase TRC_TCTRL.MASTER = false
    let st := s.rd trcBase TRC_TSTAT.STATE
    let rte := (takeLocalTyp s n tTIME).rte
    (s.lkState n = lkACTIVE →
      (∃ u, exec (.timeExchange n) s = .next u ∧
        u.link n = { s.link n with llOut := (s.link n).llOut ++
          [{ typ := tTIME, src := s.endpoint 19, last := true, itime := s.ns, body := leBytes 8 s.ns }] } ∧
        u = { s with links := u.links }) ∧
      (∃ u, exec (.time n t1 t2 t3 t4) s = .next u ∧
        u.rd trcBase (TRC_LINKDLY.PS n) = (((i t4 - i t1) - (i t3 - i t2)) / 2).toNat % 2 ^ 32 ∧
        u.rte = rte ∧ (∀ p r, tgetD s.rte.llq n [] = p :: r → p.typ = tTIME → tgetD u.rte.llq n [] = r) ∧
        (¬ parent → regsBut s u [dly] ∧ u = { s with regs := u.regs, rte := rte }) ∧
        (parent → st ≠ 3 → s.tsync.locked = false → 0 ≤ off →
          u.time = s.time + psUnits off.toNat ∧ u.rd trcBase TRC_TSTAT.STATE = 1 ∧
          u.rd trcBase TRC_TSTAT.OFFSET = toBits 32 (-off) ∧ (2000 ≤ off.natAbs → u.tsync.since = none) ∧
          regsBut s u [dly, fkey trcBase TRC_TSTAT.STATE, fkey trcBase TRC_TSTAT.OFFSET] ∧
          u = { s with regs := u.regs, time := u.time, tsync := u.tsync, rte := rte }) ∧
        (parent → st ≠ 3 → s.tsync.locked = true → off.natAbs ≤ 1000000 →
          u.tsync.slew = psUnits off.natAbs ∧ u.tsync.forward = decide (0 ≤ off) ∧ (2000 ≤ off.natAbs → u.tsync.since = none) ∧
          regsBut s u [dly, fkey trcBase TRC_TSTAT.OFFSET] ∧ u = { s with regs := u.regs, tsync := u.tsync, rte := rte }) ∧
        (parent → st ≠ 3 → s.tsync.locked = true → 1000000 < off.natAbs →
          u.rd trcBase TRC_TSTAT.STATE = 3 ∧ u.time = s.time ∧ memButEv s u none ∧
          regsButEv s u [dly, fkey trcBase TRC_TSTAT.STATE, fkey trcBase TRC_TSTAT.OFFSET])) ∧
      (parent → st = 1 ∨ st = 2 → s.silent n = true →
        ∃ u, exec (.noSignal n) s = .next u ∧ u.rd trcBase TRC_TSTAT.STATE = 3 ∧ u.time = s.time ∧
          u.tsync = { s.tsync with since := none, slew := 0 } ∧ linkOnly s u)) ∧
    (∀ t, s.tsync.since = some t → t + usUnits 1000 ≤ s.clock → st < 2 →
      ∃ u, exec .locked s = .next u ∧ u.rd trcBase TRC_TSTAT.STATE = 2 ∧ u.tsync.locked = true ∧
        regsBut s u [fkey trcBase TRC_TSTAT.STATE] ∧ u = { s with regs := u.regs, tsync := u.tsync }) ∧
    (s.accepts c (trcBase + 8) 4 →
      ∃ u, exec (.relock c) s = .next u ∧ u.rd trcBase TRC_TCTRL.RELOCK = 1 ∧
        (∀ f ∈ [TRC_TCTRL.MASTER, TRC_TCTRL.PARENT, TRC_TCTRL.PVALID], u.rd trcBase f = s.rd trcBase f) ∧
        u = { s with regs := u.regs, out := s.out ++ [.compl 0 []] }) ∧
    (s.accepts c (trcBase + 0x10) 8 →
      let may := s.bit trcBase TRC_TCTRL.MASTER = true ∧ s.tsync.locked = false ∧ s.tsync.set_ = false
      (may → ∃ u, exec (.trcTset c v) s = .next u ∧ u.ns = v ∧ u.tsync.set_ = true ∧ u.rd trcBase TRC_TSTAT.STATE = 1 ∧
        u = { s with regs := u.regs, time := 7 * v, tsync := u.tsync, out := s.out ++ [.compl 0 []] }) ∧
      (¬ may → exec (.trcTset c v) s = .next { s with out := s.out ++ [.compl 0 []] }))

/-- A COLL that its queue may start begins: HEAD moves past it, one without repeats is complete, and the first repeat
of any other is the newest that waits for a context of the partition; one that is to be executed again asks again. A
free Retriever takes the oldest waiting RCOPY: one of a single repeat from host memory becomes a host access of its
length for the partition's LD, or makes none and faults with BAD_ADDR when its local range lies in no memory, and a
Retriever with bytes to copy shows that it sends. The oldest repeat that waits for a context takes the lowest free one
and COLL_STARTED rises: a refused descriptor completes it with its status, and a barrier whose first axis has several
members opens with a credit request to the next one. A member that has completed a barrier's stage begins the next
with a credit request. (R171, R204, R205, R357, R358, R362, R476) -/
def Obligations.CopiesAndContexts : Prop :=
  ∀ (s : State) (p n k c : Nat) (q : QId) (num : Nat), s.live = true → p < 16 → n < 4 → k < 8 → c < 16 →
    let asks := fun (u : State) (x : Coll) =>
      ∃ r : Pkt, tgetD u.rte.inq 168 [] = tgetD s.rte.inq 168 [] ++ flitsOf r ∧ r.typ = 0x18 ∧
        r.dest = s.successor x * 32 + 19 ∧ r.body = collHead x.gid x.seq x.digest ++ [x.stage, c, dClvl x.desc, 0] ++ leBytes 4 s.coord
    (∀ w, okQueue q = true → s.qPart q = some k → s.readyNq q opCOLL = some (num, w) →
      (∀ pr ∈ (s.queue q).prog, cwOPCODE pr.w = opCOLL → pr.st = .work → pr.left < cwREPEAT pr.w) →
      ∃ u, exec (.coll q) s = .next u ∧ Started s u q num w (if cwREPEAT w = 0 then .done else .work) ∧
        (u.part k).copen = (s.part k).copen ++ (if cwREPEAT w = 0 then [] else [(q, num, 0)]) ∧
        u = { s with regs := u.regs, queues := u.queues, parts := u.parts }) ∧
    (∀ pr rest, okQueue q = true → s.qPart q = some k → (s.queue q).prog = pr :: rest → cwOPCODE pr.w = opCOLL →
      pr.st = .work → pr.left = cwREPEAT pr.w → pr.pieces = 0 → (∀ e ∈ (s.part k).copen, e.1 = q → e.2.1 ≠ pr.num) →
      ∃ u, exec (.coll q) s = .next u ∧ (u.part k).copen = (s.part k).copen ++ [(q, pr.num, 0)] ∧
        u = { s with parts := u.parts }) ∧
    (∀ rest pr, (s.ret p n).cur = none → s.bridges = 0 → (s.ret p n).waiting = (q, num) :: rest →
      s.progOf q num = some pr → pr.st = .work → qPack q = p → cwREPEAT pr.w = 1 → rcopyHOST pr.w = 1 → rcopyDIR pr.w = 0 →
      (badRange (rcopyLADDR pr.w) (32 * rcopyLEN32 pr.w) = true →
        cwOPCODE pr.w = opRCOPY → rcopyRET pr.w = n → pr.err = none → ∃ u x, exec (.retrieverStart p n) s = .next u ∧
          u.haccs = s.haccs ∧ (u.ret p n).cur = none ∧ (u.ret p n).waiting = rest ∧ u.progOf q num = some x ∧
          x.st = .fault 0x30 stBadAddr (rcopyLADDR pr.w) 0) ∧
      (badRange (rcopyLADDR pr.w) (32 * rcopyLEN32 pr.w) = false →
      ∃ u, exec (.retrieverStart p n) s = .next u ∧ (u.ret p n).cur = some (q, num) ∧ (u.ret p n).waiting = rest ∧
        (u.ret p n).cmd = pr.w ∧ (rcopyLEN32 pr.w ≠ 0 → u.retState p n = 1) ∧ u.haccNext = s.haccNext + 1 ∧
        tget u.haccs s.haccNext = some { ld := s.packLd p, kind := .read, addr := rcopyFARHOST pr.w % 2 ^ 64,
                                         loc := rcopyLADDR pr.w, len := 32 * rcopyLEN32 pr.w, owner := .cmd q num 0, pack := p } ∧
        u = { s with rets := u.rets, queues := u.queues, haccs := u.haccs, haccNext := u.haccNext })) ∧
    (∀ rep rest pr d, (s.part k).copen = (q, num, rep) :: rest → s.progOf q num = some pr → pr.st = .work → pr.err = none →
      (List.range 16).find? (fun j => !((s.coll k j).isOpen)) = some c → s.rd (s.engine k) COLL_STARTED.COUNT + 1 < 2 ^ 48 →
      (∀ ps qs, let v := { s with parts := ps, queues := qs }
        memRead v (.unit (qPack q)) (collDADDR pr.w + 64 * rep) 64 = (v, 0, d)) →
      let seq := (collSEQ pr.w + rep) % 65536
      let started := fun (u : State) =>
        u.rd (s.engine k) COLL_STARTED.COUNT = s.rd (s.engine k) COLL_STARTED.COUNT + 1 ∧
        (u.part k).copen = (if rep + 1 < cwREPEAT pr.w then rest ++ [(q, num, rep + 1)] else rest)
      (s.openStatus k (qPack q) d ≠ 0 →
        ∃ u, exec (.contextOpen k) s = .next u ∧ started u ∧ (u.coll k c).isOpen = false ∧ (u.coll k c).done = true ∧
          (u.coll k c).status = s.openStatus k (qPack q) d ∧ (u.coll k c).gid = dGid d ∧ (u.coll k c).seq = seq) ∧
      (∀ a, s.openStatus k (qPack q) d = 0 → s.collFor k (dGid d) seq = none → (s.part k).held = [] → s.keysOn k = true →
        dBarrier d = true → (stagesOf d)[0]? = some (.tok, a) → 1 < dN d a →
        let x : Coll := { isOpen := true, q := q, num := num, rep := rep, pack := qPack q, part := k,
                          daddr := collDADDR pr.w + 64 * rep, desc := d, gid := dGid d, seq := seq, digest := dDigest d,
                          topen := s.ns, tprog := s.ns }
        s.successor x ≠ s.coord →
        ∃ u, exec (.contextOpen k) s = .next u ∧ started u ∧ u.coll k c = { x with snd := { asked := true } } ∧ asks u x ∧
          u = { s with regs := u.regs, queues := u.queues, parts := u.parts, rte := u.rte })) ∧
    (∀ a, let x := s.coll k c
      x.isOpen = true → s.stageDone x = true → dBarrier x.desc = true → (stagesOf x.desc)[x.stage + 1]? = some (.tok, a) →
      1 < dN x.desc a → x.reqs = [] → x.part = k → s.keysOn k = true →
      let y := { x with stage := x.stage + 1, step := 0, chunk := 0, snd := {}, got := [], used := 0, tokIn := 0, toks := [],
                        tokOut := 0, sround := 1, rround := 1 }
      s.successor y ≠ s.coord →
      ∃ u, exec (.stageBegin k c) s = .next u ∧ u.coll k c = { y with snd := { asked := true }, tprog := s.ns } ∧ asks u y ∧
        u = { s with parts := u.parts, rte := u.rte })

/-- A request from another device for a pair without an open context is held while there is room, and otherwise
answered with RETRY; one without a partition to receive it is answered with DENIED; one whose digest differs from that
of the open context completes the context with MISMATCH; one for the member's stage of a ring is granted the window;
an answer carries the Collar of the partition that answers. A RETRY answer has the request sent again by C_REQ_RETRY,
a MISMATCH answer or a denial completes the context, and a grant in a barrier sends the first token. (R359, R362,
R364, R369, R377) -/
def Obligations.CollRequests : Prop :=
  ∀ (s : State) (p : Pkt) (k c : Nat), s.live = true → k < 8 → c < 16 → p.src / 32 ≠ s.coord →
    let b := p.body
    let gid := leNat (slice b 0 2)
    let seq := leNat (slice b 2 2)
    let dig := leNat (slice b 4 4)
    let x := s.coll k c
    let m : CollMsg := { gid := gid, seq := seq, digest := dig, stage := b.getD 8 0, ctx := b.getD 9 0, clvl := b.getD 10 0,
                         coord := leNat (slice b 12 4), ep := p.src, collar := p.collar }
    let answers := fun (u : State) (r : Pkt) (st : Nat) =>
      tgetD u.rte.inq 171 [] = tgetD s.rte.inq 171 [] ++ flitsOf r ∧ r.typ = 0x19 ∧ r.dest / 32 = p.src / 32 ∧
        slice r.body 0 4 = leBytes 2 gid ++ leBytes 2 seq ∧ r.body.getD 10 0 = st
    (s.domPart p.collar = none → ∃ u r, exec (.cReq p) s = .next u ∧ answers u r 3 ∧ u = { s with rte := u.rte }) ∧
    (s.domPart p.collar = some k → s.collFor k gid seq = none →
      ((s.part k).held.length < 64 → ∃ u, exec (.cReq p) s = .next u ∧
        u.part k = { s.part k with held := (s.part k).held ++ [m] } ∧ u = { s with parts := u.parts, rte := u.rte }) ∧
      (64 ≤ (s.part k).held.length → ∃ u r, exec (.cReq p) s = .next u ∧ answers u r 1 ∧ r.collar = s.partCollar k ∧
        u.rd (s.engine k) COLL_RETRIES.COUNT = (s.rd (s.engine k) COLL_RETRIES.COUNT + 1) % 2 ^ 48 ∧
        u = { s with regs := u.regs, rte := u.rte })) ∧
    (s.domPart p.collar = some k → s.collFor k gid seq = some c → x.part = k →
      (dig ≠ x.digest → ∃ u, exec (.cReq p) s = .next u ∧ (u.coll k c).isOpen = false ∧ (u.coll k c).done = true ∧
        (u.coll k c).status = 1 ∧ (s.bit (s.engine k) COLL_ERR.VALID = false →
          u.rd (s.engine k) COLL_ERR.STATUS = 1 ∧ u.rd (s.engine k) COLL_ERR.CTX = c)) ∧
      (∀ a kd, dig = x.digest → x.reqs = [] → collStage x = some (kd, a) → kd ≠ .a2a → m.stage ≤ x.stage →
        ∃ u r, exec (.cReq p) s = .next u ∧ answers u r 0 ∧ r.dest = p.src ∧ r.collar = s.partCollar k ∧
          slice r.body 12 4 = leBytes 4 (dWindow x.desc) ∧
          u.coll k c = { x with back := p.src, backCtx := m.ctx, tprog := s.ns } ∧ u = { s with parts := u.parts, rte := u.rte }) ∧
      (b.getD 8 0 = x.stage → x.snd.asked = true → x.snd.granted = false →
        (b.getD 10 0 = 1 → ∃ u, exec (.cGrant p) s = .next u ∧ u.coll k c = { x with snd := { x.snd with retry := true }, tprog := s.ns } ∧
          u = { s with parts := u.parts, rte := u.rte }) ∧
        (b.getD 10 0 = 2 → ∃ u, exec (.cGrant p) s = .next u ∧ (u.coll k c).isOpen = false ∧ (u.coll k c).status = 1) ∧
        (3 ≤ b.getD 10 0 → ∃ u, exec (.cGrant p) s = .next u ∧ (u.coll k c).isOpen = false ∧ (u.coll k c).status = 7) ∧
        (∀ a, b.getD 10 0 = 0 → collStage x = some (.tok, a) → 1 < dN x.desc a → x.tokIn = 0 → x.tokOut = 0 →
          leNat (slice b 16 3) / 32 ≠ s.coord → b.getD 9 0 < 16 → x.stage < 16 →
          ∃ u r, exec (.cGrant p) s = .next u ∧
            u.coll k c = { x with tokOut := 1, step := 1, tprog := s.ns
                                  snd := { x.snd with granted := true, ctx := b.getD 9 0, window := leNat (slice b 12 4)
                                                      ep := leNat (slice b 16 3) } } ∧
            tgetD u.rte.inq 183 [] = tgetD s.rte.inq 183 [] ++ flitsOf r ∧ r.typ = 0x11 ∧ r.dest = leNat (slice b 16 3) ∧
            r.xfer / 256 % 1024 = 1 ∧ u = { s with parts := u.parts, rte := u.rte }))) ∧
    (x.isOpen = true → x.snd.retry = true → x.part = k → s.keysOn k = true → s.successor x ≠ s.coord →
      ∃ u r, exec (.cReqRetry k c) s = .next u ∧ u.coll k c = { x with snd := { x.snd with retry := false }, tprog := s.ns } ∧
        tgetD u.rte.inq 168 [] = tgetD s.rte.inq 168 [] ++ flitsOf r ∧ r.typ = 0x18 ∧ r.dest = s.successor x * 32 + 19 ∧
        u = { s with parts := u.parts, rte := u.rte })

/-- Data that arrive for the stage of an open context take their place in its window, and what can move then moves.
Those for the last member of a broadcast along one axis into its pack's buffer go to DST, and with the last byte the
collective completes with OK. A token of the next step lets a granted member go on and send the next one, and one of a
later step waits for those before it; returned credit, for the context that the data's sender has (the model's reading
of the body's context byte, assumption 46), is recorded; a packet for no open context of its stage is discarded and
counted. An abort completes the open context with its status, or is held for one to come; a write of COLL_CTRL.ABORT
that passes its checks completes the open contexts that it names with ABORTED, and no others. (R355, R356, R362, R363,
R365, R368, R370, R377) -/
def Obligations.CollData : Prop :=
  ∀ (s : State) (p : Pkt) (k c : Nat), s.live = true → k < 8 → c < 16 → s.active k = true →
    let x := s.coll k c
    let d := x.desc
    let b := p.body
    let win := packBufBase x.pack + 65536 * dWblk d
    let size := dCount d * dOutSize d
    (∀ a, s.collTarget p (p.xfer % 16) (p.xfer / 16 % 16) (some (p.xfer / 2 ^ 18)) = some (k, c) → x.part = k →
      (dAxes d = [a] → collStage x = some (.bcast, a) → s.rootDist d a + 1 = dN d a → 0 < s.rootDist d a → x.stage = 0 →
        x.used = 0 → x.got = [] → p.addr = 0 → p.data.length = padded size → padded size ≤ 7168 →
        (∀ y ∈ p.data, y < 256) → 0 < size → x.pack < 16 → s.packPart x.pack = some k → s.bridges = 0 → dWblk d + 2 ^ dWlog d ≤ 128 →
        packBufBase x.pack ≤ dDst d → dDst d + size ≤ packBufBase x.pack + 0x800000 →
        s.bit (cenBase k) CEN_PCTRL.NFEN = false → (∀ pr, s.progOf x.q x.num = some pr → pr.err = none) →
        ∃ u, exec (.cData p) s = .next u ∧ u.mem = mwrite (mwrite s.mem win p.data) (dDst d) (p.data.take size) ∧
          (u.coll k c).isOpen = false ∧ (u.coll k c).done = true ∧ (u.coll k c).status = 0 ∧ (u.coll k c).rx = x.rx + p.data.length) ∧
      (let w := dWindow d
       let o := p.addr % w
       0 < p.data.length → o + p.data.length ≤ w → 65536 * dWblk d + w ≤ 0x800000 → x.pack < 16 → s.packPart x.pack = some k →
        s.bridges = 0 → s.bit (cenBase k) CEN_PCTRL.NFEN = false →
        ∃ v, exec (.cData p) s = .next (progress 4096 v k c) ∧
          v.coll k c = { x with got := tset x.got p.addr p.data.length, rx := x.rx + p.data.length, tprog := s.ns } ∧
          (∀ j, j < 16 → j ≠ c → v.coll k j = s.coll k j) ∧
          v = { s with mem := mwrite s.mem (win + o) p.data, parts := v.parts, rte := v.rte }) ∧
      (∀ t, collStage x = some (.tok, a) → p.xfer / 256 % 1024 = t → x.tokOut = t → t < dN d a → x.tokIn + 1 < t →
        x.tokIn + 1 ∉ x.toks →
        ∃ u, exec (.cToken p) s = .next u ∧
          u.coll k c = { x with toks := (x.toks ++ [t]).filter (fun i => decide (x.tokIn < i)), tprog := s.ns } ∧
          u = { s with parts := u.parts, rte := u.rte }) ∧
      (∀ t, collStage x = some (.tok, a) → p.xfer / 256 % 1024 = t → x.snd.granted = true → x.tokOut = t → x.tokIn + 1 = t →
        t + 1 ∉ x.toks → t + 1 < dN d a → x.snd.ep / 32 ≠ s.coord → s.keysOn k = true → t < 1023 → x.snd.ctx < 16 →
        ∃ u r, exec (.cToken p) s = .next u ∧
          u.coll k c = { x with tokIn := t, toks := x.toks.filter (fun i => decide (t < i)), tokOut := t + 1, step := t + 1,
                                tprog := s.ns } ∧
          tgetD u.rte.inq 183 [] = tgetD s.rte.inq 183 [] ++ flitsOf r ∧ r.typ = 0x11 ∧ r.dest = x.snd.ep ∧
          r.xfer / 256 % 1024 = t + 1 ∧ u = { s with parts := u.parts, rte := u.rte })) ∧
    (∀ i ∈ [Instr.cData, Instr.cToken], s.packPart (p.dest % 32) = some k →
      s.collTarget p (p.xfer % 16) (p.xfer / 16 % 16) (some (p.xfer / 2 ^ 18)) = none →
      ∃ u, exec (i p) s = .next u ∧
        u.rd (s.engine k) COLL_DROP.COUNT = (s.rd (s.engine k) COLL_DROP.COUNT + 1) % 2 ^ 48 ∧
        regsBut s u [fkey (s.engine k) COLL_DROP.COUNT, fkey (s.engine k) COLL_DROP.WRAP] ∧
        u = { s with regs := u.regs, rte := u.rte }) ∧
    (∀ a kd, s.collTarget p (b.getD 9 0 % 16) (b.getD 8 0) none = some (k, c) → collStage x = some (kd, a) → kd ≠ .a2a →
      kd ≠ .tok → x.got = [] → itemOf (s.stepLens x true) (x.snd.window / 2) x.snd.sent = none →
      let y := { x with snd := { x.snd with credited := max x.snd.credited (leNat (slice b 12 8)) }, tprog := s.ns }
      s.stageDone y = false ∨ x.stage + 1 < (stagesOf d).length →
      ∃ u, exec (.cCredit p) s = .next u ∧ u.coll k c = y ∧ u = { s with parts := u.parts, rte := u.rte }) ∧
    (let gid := leNat (slice b 0 2)
     let seq := leNat (slice b 2 2)
     s.domPart p.collar = some k →
      (s.collFor k gid seq = some c → ∃ u, exec (.cAbort p) s = .next u ∧ (u.coll k c).isOpen = false ∧
        (u.coll k c).done = true ∧ (u.coll k c).status = b.getD 4 0) ∧
      (s.collFor k gid seq = none → (s.part k).held.length < 64 →
        ∃ u m, exec (.cAbort p) s = .next u ∧ u.part k = { s.part k with held := (s.part k).held ++ [m] } ∧
          m.isAbort = true ∧ m.gid = gid ∧ m.seq = seq ∧ m.status = b.getD 4 0 ∧ u = { s with parts := u.parts, rte := u.rte })) ∧
    (∀ (src : Src) pk mask, pk < 16 → s.packPart pk = some k → s.accepts src (collBase pk) 4 →
      ∃ u, exec (.collCtrlAbort src pk mask) s = .next u ∧
        (∀ j, j < 16 → (bitAt mask j = true → (s.coll k j).isOpen = true →
            (u.coll k j).isOpen = false ∧ (u.coll k j).done = true ∧ (u.coll k j).status = 9) ∧
          (bitAt mask j = false ∨ (s.coll k j).isOpen = false → u.coll k j = s.coll k j)) ∧
        u.rd (s.engine k) COLL_CTRL.RETRY_US = s.rd (s.engine k) COLL_CTRL.RETRY_US ∧
        u.rd (s.engine k) COLL_CTRL.ERR_EVT = s.rd (s.engine k) COLL_CTRL.ERR_EVT)

/-- A write of LOAD that passes its checks stores the staged overlay under its number and marks it held, or shows the
first check of R393 that it breaks and stores nothing; one of DROP removes it unless it is pending. The first queue to
arrive at an OVERLAY makes its target pending; when every participating queue has arrived the switch makes it active,
counts, and releases them. In a switch with a phase, a released OVERLAY becomes ready, and with the last one the
records close, its queues take the phase, and no queue waits. (R209, R393, R394, R395, R396, R397, R404) -/
def Obligations.Overlays : Prop :=
  ∀ (s : State) (c : Src) (k id : Nat) (q : QId), s.live = true → k < 8 → id < 16 → okQueue q = true →
    let b := shapePBase k
    let bs := mread s.mem (stagingBase k) 4096
    let err := s.overlayError k id bs
    let pend := s.bit b SHAPE_OVSTAT.PENDING
    (s.accepts c (b + 0x10) 4 →
      ∃ u, exec (.overlayLoad c k id) s = .next u ∧ u.rd b SHAPE_OVSTAT.LOAD_ERR = err ∧ u.rd b SHAPE_OVSTAT.LOAD_DONE = 1 ∧
        (err = 0 → (u.part k).overlays = tset (s.part k).overlays id (bs.take (imgLength bs)) ∧
          bitAt (u.rd b SHAPE_OVSTAT.HELD) id = true) ∧
        (err ≠ 0 → u.parts = s.parts ∧ u.rd b SHAPE_OVSTAT.HELD = s.rd b SHAPE_OVSTAT.HELD) ∧ memButEv s u (some k) ∧
        regsButEv s u [fkey b SHAPE_OVCTRL.ID, fkey b SHAPE_OVSTAT.HELD, fkey b SHAPE_OVSTAT.LOAD_ERR, fkey b SHAPE_OVSTAT.LOAD_DONE]) ∧
    (s.accepts c (b + 0x10) 4 → ∃ u, exec (.overlayDrop c k id) s = .next u ∧ u.rd b SHAPE_OVSTAT.LOAD_DONE = 1 ∧
      (pend = true → s.rd b SHAPE_OVSTAT.PEND_ID = id → u.rd b SHAPE_OVSTAT.LOAD_ERR = 9 ∧ u.parts = s.parts) ∧
      (pend = false ∨ s.rd b SHAPE_OVSTAT.PEND_ID ≠ id → u.rd b SHAPE_OVSTAT.LOAD_ERR = 0 ∧
        tget (u.part k).overlays id = none ∧ bitAt (u.rd b SHAPE_OVSTAT.HELD) id = false) ∧
      u = { s with regs := u.regs, parts := u.parts, out := s.out ++ [.compl 0 []] }) ∧
    (∀ num w, s.qPart q = some k → s.headCmd q = some (num, w) → cwOPCODE w = opOVERLAY → cwREPEAT w ≠ 0 →
      (s.queue q).atSwitch = false → (s.queue q).skip = 0 → s.held q = false → s.breakAt q w 0 = false →
      s.refuseCode q w = none → s.mayArrive q = true → (s.part k).barrier = [] →
      (∀ t, q = .cq t → (s.queue q).drain + 1 ≤ (s.tile t).cyc) →
      (pend = false → (∃ j ∈ s.participants k, j ≠ q ∧ (s.queue j).arrived = false) →
        ∃ u, exec (.overlayArrival q) s = .next u ∧ u.rd b SHAPE_OVSTAT.PENDING = 1 ∧
          u.rd b SHAPE_OVSTAT.PEND_ID = overlayOVL w ∧ u.queue q = { s.queue q with arrived := true } ∧
          (u.part k).first = s.ns ∧ regsBut s u [fkey b SHAPE_OVSTAT.PENDING, fkey b SHAPE_OVSTAT.PEND_ID] ∧
          u = { s with regs := u.regs, queues := u.queues, parts := u.parts }) ∧
      (pend = false ∨ s.rd b SHAPE_OVSTAT.PEND_ID = overlayOVL w →
        (∀ x ∈ tgetD (s.part k).overlays (overlayOVL w) [], x < 256) →
        (∀ j ∈ s.participants k, j ≠ q → (s.queue j).arrived = true) →
        ∃ u, exec (.overlayArrival q) s = .next u ∧ u.rd b SHAPE_OVSTAT.PENDING = 0 ∧
          u.rd b SHAPE_OVSTAT.ACTIVE = overlayOVL w ∧ u.rd b SHAPE_OVSTAT.ACTIVE_VALID = 1 ∧
          u.rd b SHAPE_OVCOUNT.COUNT = (s.rd b SHAPE_OVCOUNT.COUNT + 1) % 2 ^ 32 ∧
          (∀ j ∈ s.participants k, (u.queue j).arrived = false ∧ (u.queue j).released = true) ∧ memButEv s u (some k))) ∧
    (∀ pr rest, s.qPart q = some k → (s.queue q).prog = pr :: rest → cwOPCODE pr.w = opOVERLAY → pr.st = .work →
      q ∈ (s.part k).barrier → q ∉ (s.part k).ready → pend = false →
      ((∃ j ∈ (s.part k).barrier, j ≠ q ∧ j ∉ (s.part k).ready) →
        ∃ u, exec (.overlayReady q) s = .next u ∧ u.part k = { s.part k with ready := (s.part k).ready ++ [q] } ∧
          u = { s with parts := u.parts }) ∧
      ((∀ j ∈ (s.part k).barrier, j ≠ q → j ∈ (s.part k).ready) →
        ∃ u, exec (.overlayReady q) s = .next u ∧ (u.part k).barrier = [] ∧ (u.part k).ready = [] ∧
          u.rd (cenBase k) CEN_PSTAT.CLOSES = (s.rd (cenBase k) CEN_PSTAT.CLOSES + 1) % 2 ^ 32 ∧
          ∀ j ∈ (s.part k).barrier, (u.queue j).phase = (s.part k).phid))

/-- With Kennel serving and a command of the mailbox latched without a result, its row comes to one result. GET_INFO,
GET_CERT, GET_MEAS, FW_STATUS and DEBUG_CHALLENGE answer their data with OK when the input has their length, and LEN
otherwise; an unknown measurement and an offset past the certificate chain are MEAS (that the offset at the chain's
end is OK is the model's reading, assumption 76); a challenge remembers the nonce. ENROLL_OPKEY, of 388 or 772 bytes
(the model's reading, assumption 75), writes the fuse slot of a legal request and REVOKE_OPKEY blows the revoke fuse
of one; any other is OPKEY and changes no fuse. Nothing else changes. (R440, R446, R448, R451, R456, R458, R459, R504) -/
def Obligations.MailboxQueries : Prop :=
  ∀ s : State, s.rd shpBase SHP_STATE.PSTATE = 0 → s.shp.failed = false → s.shp.off = false → s.kn.result = none →
    let len := s.rd knlBase KNL_MBCMD.LEN
    let bs := mread s.mem knlBuf len
    let i := leNat bs
    let slot := bs.getD 0 0
    (s.kn.running = some 0x01 →
      (len ≠ 0 → exec .getInfo s = .next (mbResult s 0x02 0 [])) ∧
      (len = 0 → ∃ x, exec .getInfo s = .next (mbResult s 0 0 x) ∧ x.length = 40 ∧
        x.take 16 = leBytes 8 s.ident.uid ++ [s.ident.grade, s.ident.stepping, s.rd knlBase KNL_STATE.DEBUG,
          s.rd shapeBase SHAPE_STAT.PARTS] ++ leBytes 4 (s.rd shapeBase SHAPE_ID.ID) ∧
        (x.drop 16).take 4 = leBytes 4 (s.runImg 2).version ∧ (x.drop 36).take 2 = [(s.runImg 2).llvl, (s.runImg 2).clvl])) ∧
    (s.kn.running = some 0x02 →
      (len ≠ 4 → exec .getCert s = .next (mbResult s 0x02 0 [])) ∧
      (len = 4 → s.chainLen < i → exec .getCert s = .next (mbResult s 0x0F 0 [])) ∧
      (len = 4 → i ≤ s.chainLen → exec .getCert s = .next (mbResult s 0 0
        ((List.range (min 3840 (s.chainLen - i))).map (fun j => s.certByteAt (i + j)))))) ∧
    (s.kn.running = some 0x03 →
      (len ≠ 1 → exec .getMeas s = .next (mbResult s 0x02 0 [])) ∧
      (len = 1 → i = 0 ∨ 18 < i → exec .getMeas s = .next (mbResult s 0x0F 0 [])) ∧
      (len = 1 → 1 ≤ i → i ≤ 18 → exec .getMeas s = .next (mbResult s 0 0
        ([if (s.measurement i).1 then 1 else 0, 0] ++ leBytes 2 (s.measurement i).2.length ++ (s.measurement i).2)))) ∧
    (s.kn.running = some 0x45 →
      (len ≠ 0 → exec .fwStatus s = .next (mbResult s 0x02 0 [])) ∧
      (len = 0 → ∃ x, exec .fwStatus s = .next (mbResult s 0 0 x) ∧ x.length = 44 ∧
        x.take 4 = [s.kn.fwState, s.kn.fwType, 0, 0])) ∧
    (s.kn.running = some 0x30 →
      (len ≠ 0 → exec .debugChallenge s = .next (mbResult s 0x02 0 [])) ∧
      (len = 0 → ∃ u x, exec .debugChallenge s = .next u ∧ x.length = 32 ∧
        u = mbResult { s with kn := { s.kn with nonce := some x, drbg := s.kn.drbg + 1 } } 0 0 x)) ∧
    (s.kn.running = some 0x10 →
      let good := slot < 4 ∧ zeros (slice bs 1 3) = true ∧ tget s.ident.opKeys slot = none ∧
        (s.ident.opKeys = [] ∨ (len = 772 ∧ s.signedByOther slot (bs.take 388) (slice bs 388 384) = true))
      (len ≠ 388 → len ≠ 772 → exec .enrollOpkey s = .next (mbResult s 0x02 0 [])) ∧
      (len = 388 ∨ len = 772 → ¬ good → exec .enrollOpkey s = .next (mbResult s 0x0C 0 [])) ∧
      (len = 388 ∨ len = 772 → good → exec .enrollOpkey s = .next (mbResult { s with
        ident := { s.ident with opKeys := tset s.ident.opKeys slot (beNat (slice bs 4 384)) } } 0 0 []))) ∧
    (s.kn.running = some 0x11 →
      let live := (s.ident.opKeys.filter (fun k => !(bitAt s.ident.opRev k.1))).map Prod.fst
      let good := zeros (slice bs 1 3) = true ∧ slot ∈ live ∧ 2 ≤ live.length ∧
        s.signedByOther slot (bs.take 4) (slice bs 4 384) = true
      (len ≠ 388 → exec .revokeOpkey s = .next (mbResult s 0x02 0 [])) ∧
      (len = 388 → ¬ good → exec .revokeOpkey s = .next (mbResult s 0x0C 0 [])) ∧
      (len = 388 → good → ∃ u, exec .revokeOpkey s = .next u ∧ u.kn.result = some (0, 0, []) ∧
        (∀ j, bitAt u.ident.opRev j = (bitAt s.ident.opRev j || j == slot)) ∧
        u = { s with kn := u.kn, ident := { s.ident with opRev := u.ident.opRev } }))

/-- With Kennel serving, LOAD_BASE and PART_REQ come to the first result that R561 gives an image that breaks a rule,
and change nothing then. An accepted base image is kept, its number and the closed state show, every port has its
coordinates, and the creations begin in ascending order; an accepted request begins the creation of its partition, or
stops the partition, which is tearing down until the command ends and keeps its creation count (the model's reading,
assumption 82). While a warm reset holds the compute logic, a command that would act on it waits (the model's choice,
assumption 141). When a zero fill completes, the partition is active with its packs, stacks, domains and a raised
count, its stacks read zero, and the next creation begins. (R274, R382, R383, R384, R433, R442, R443, R444, R561) -/
def Obligations.Images : Prop :=
  ∀ s : State, s.rd shpBase SHP_STATE.PSTATE = 0 → s.shp.failed = false → s.shp.off = false → s.kn.result = none →
    let bs := s.mbInput
    let begun := fun (u : State) (sec : List Nat) => (u.part (secPart sec)).life = 1 ∧
      (u.part (secPart sec)).section_ = sec ∧ (u.part (secPart sec)).count = (s.part (secPart sec)).count ∧
      (tget u.kn.xts (secPart sec)).isSome = true
    (s.kn.running = some 0x20 →
      let r := s.imageResult 1
      let dup := distinct (s.mbSections.map secJdom) = false
      (r.1 ≠ 0 → exec .loadBase s = .next (mbResult s r.1 r.2 [])) ∧
      (r.1 = 0 → s.anyPart = true → exec .loadBase s = .next (mbResult s 0x07 0 [])) ∧
      (r.1 = 0 → s.anyPart = false → dup → exec .loadBase s = .next (mbResult s 0x0B 0 [])) ∧
      (r.1 = 0 → s.anyPart = false → ¬ dup → s.shp.warm = true → exec .loadBase s = .next s) ∧
      (r.1 = 0 → s.anyPart = false → ¬ dup → s.shp.warm = false →
        ∃ u, exec .loadBase s = .next u ∧ u.kn.result = some (0, 0, []) ∧ u.kn.base = bs.take (imgLength bs) ∧
          u.rd shapeBase SHAPE_ID.ID = imgId bs % 2 ^ 32 ∧ u.rd shapeBase SHAPE_STAT.LOADED = 1 ∧
          u.rd shapeBase SHAPE_STAT.CLOSED = 1 ∧ (∀ n, n < 8 → u.rd (lnkBase n) LNK_COORD.VALID = 1) ∧
          u.kn.creating.Perm s.mbSections ∧ u.kn.creating.Pairwise (fun x y => secPart x ≤ secPart y) ∧
          (∀ sec rest, u.kn.creating = sec :: rest → (u.part (secPart sec)).life = 1 ∧ (u.part (secPart sec)).section_ = sec) ∧
          u.ident = s.ident)) ∧
    (s.kn.running = some 0x21 →
      let r := s.imageResult 2
      let sec := s.mbSections.headD []
      let k := secPart sec
      let shares := fun j => j < 8 ∧ j ≠ k ∧ (s.part j).life ≠ 0
      let inUse := ∃ j, shares j ∧ (Nat.land (s.rd (shapePBase j) SHAPE_PCFG.PACKS) (secPacks sec) ≠ 0 ∨
        Nat.land (s.rd (shapePBase j) SHAPE_PCFG.STACKS) (secStacks sec) ≠ 0)
      let dup := ∃ j, shares j ∧ (s.part j).jdom = secJdom sec
      let fits := s.rd shapeBase SHAPE_STAT.LOADED = 1 ∧ imgId bs = s.rd shapeBase SHAPE_ID.ID
      (r.1 ≠ 0 → exec .partReq s = .next (mbResult s r.1 r.2 [])) ∧
      (r.1 = 0 → ¬ fits → exec .partReq s = .next (mbResult s 0x06 0 [])) ∧
      (r.1 = 0 → fits → isTeardown sec = true → (s.part k).life = 0 → exec .partReq s = .next (mbResult s 0x09 0 [])) ∧
      (r.1 = 0 → fits → isTeardown sec = true → (s.part k).life ≠ 0 → s.shp.warm = true → exec .partReq s = .next s) ∧
      (r.1 = 0 → fits → isTeardown sec = true → (s.part k).life ≠ 0 → s.shp.warm = false →
        ∃ u, exec .partReq s = .next u ∧ u.kn.result = some (0, 0, []) ∧ (u.part k).life = 3 ∧
          (u.part k).count = (s.part k).count ∧ u.active k = false ∧ u.offered k = s.offered k ∧
          (∀ j, j < 8 → j ≠ k → (u.part j).life = (s.part j).life ∧ u.active j = s.active j)) ∧
      (r.1 = 0 → fits → isTeardown sec = false → (s.part k).life ≠ 0 → exec .partReq s = .next (mbResult s 0x08 0 [])) ∧
      (r.1 = 0 → fits → isTeardown sec = false → (s.part k).life = 0 → inUse → exec .partReq s = .next (mbResult s 0x0A 0 [])) ∧
      (r.1 = 0 → fits → isTeardown sec = false → (s.part k).life = 0 → ¬ inUse → dup →
        exec .partReq s = .next (mbResult s 0x0B 0 [])) ∧
      (r.1 = 0 → fits → isTeardown sec = false → (s.part k).life = 0 → ¬ inUse → ¬ dup → s.shp.warm = true →
        exec .partReq s = .next s) ∧
      (r.1 = 0 → fits → isTeardown sec = false → (s.part k).life = 0 → ¬ inUse → ¬ dup → s.shp.warm = false →
        ∃ u, exec .partReq s = .next u ∧ u.kn.result = some (0, 0, []) ∧ u.kn.creating = [sec] ∧ begun u sec ∧
          u.active k = s.active k ∧ ∀ j, j ≠ k → u.part j = s.part j)) ∧
    (∀ sec rest, s.live = true → s.kn.creating = sec :: rest → (∀ x ∈ rest, secPart x ≠ secPart sec) →
      let k := secPart sec
      ∃ u, exec .zeroFillDone s = .next u ∧ u.kn.creating = rest ∧ u.active k = true ∧
        u.rd (shapePBase k) SHAPE_PCFG.PACKS = secPacks sec % 2 ^ 16 ∧
        u.rd (shapePBase k) SHAPE_PCFG.STACKS = secStacks sec % 2 ^ 12 ∧
        bitAt (u.rd shapeBase SHAPE_STAT.PARTS) k = true ∧ (u.part k).life = 2 ∧
        (u.part k).count = ((s.part k).count + 1) % 2 ^ 32 ∧
        (∀ x, x < 12 * 2 ^ 36 → bitAt (secStacks sec) (x / 2 ^ 36) = true → mget u.mem x = 0) ∧
        (∀ d h, d < secNdom sec → h < 12 → bitAt (secDom sec d) h = true →
          (∀ e, e < secNdom sec → bitAt (secDom sec e) h = true → e = d) →
          let m := secDom sec d
          let hs := (List.range 12).filter (fun j => bitAt m j)
          u.rd (hbmcBase h) HBMC_DOMAIN.VALID = 1 ∧ u.rd (hbmcBase h) HBMC_DOMAIN.PART = k ∧
            u.rd (hbmcBase h) HBMC_DOMAIN.DMASK = m % 2 ^ 12 ∧ u.rd (hbmcBase h) HBMC_DOMAIN.DSIZE = hs.length) ∧
        (∀ p, p < 16 → bitAt (secPacks sec) p = true → (∀ x ∈ rest, bitAt (secPacks x) p = false) →
          u.rd (syncBase p) SYNC_RANGE.FIRST = secRange sec p % 1024 ∧
          u.rd (syncBase p) SYNC_RANGE.LAST = secRange sec p / 65536 % 1024 ∧
          u.rd (syncBase p) SYNC_RANGE.VALID = secRange sec p / 2 ^ 31 % 2) ∧
        (∀ x r, rest = x :: r → begun u x))

/-- With Kennel serving, DEBUG_UNLOCK takes the nonce and, with a token that R450 and R451 accept, stops every
partition. FW_BEGIN starts the receiving of an image of a legal type and size, FW_BLOCK fetches its block as an access
of the FMLD's function, and with the host's last answer keeps a block whose CRC matches, while a fetch that the port
or the host fails, which counts in CXLP_HOSTERR, gives FW_FETCH, FW_VERIFY answers the digest of an image that passes
R506, FW_ACTIVATE with that digest opens the window and erases the image's region, and FW_ABORT forgets what was
staged, in the debug state too (the model's reading, assumption 74); each comes to the code of R510 otherwise. While a
warm reset holds the compute logic and the host port, what acts on them waits (the model's choice, assumption 141).
KNL_DONE shows the result with DONE and the output in the buffer, and does the last steps of teardown and debug entry
(the model's reading, assumption 82): partitions that the command tears down have gone, with their keys and stacks;
after an accepted token the device is in the debug state, its link, IDE and memory keys and its attestation key are
gone and its ports are down; at the end of an activation the image stands in the flash and the fuse count has risen to
its SVN. (R450, R451, R456, R458, R459, R476, R504, R505, R506, R507, R508, R510) -/
def Obligations.FirmwareAndDebug : Prop :=
  ∀ s : State, s.rd shpBase SHP_STATE.PSTATE = 0 → s.shp.failed = false → s.shp.off = false →
    let bs := s.mbInput
    let len := s.rd knlBase KNL_MBCMD.LEN
    let dbg := s.rd knlBase KNL_STATE.DEBUG
    let runs := fun op => s.kn.running = some op ∧ s.kn.result = none
    (runs 0x31 →
      (dbg = 1 → exec .debugUnlock s = .next (mbResult s 0x0D 0 [])) ∧
      (dbg = 0 → len ≠ 448 → exec .debugUnlock s = .next (mbResult s 0x02 0 [])) ∧
      (dbg = 0 → len = 448 → s.tokenOk bs = false →
        exec .debugUnlock s = .next (mbResult { s with kn := { s.kn with nonce := none } } 0x0E 0 [])) ∧
      (dbg = 0 → len = 448 → s.tokenOk bs = true → s.shp.warm = true → exec .debugUnlock s = .next s) ∧
      (dbg = 0 → len = 448 → s.tokenOk bs = true → s.shp.warm = false →
        ∃ u, exec .debugUnlock s = .next u ∧ u.kn.result = some (0, 0, []) ∧ u.kn.nonce = none ∧
          (∀ k, k < 8 → (s.part k).life ≠ 0 → (u.part k).life = 3 ∧ u.active k = false) ∧ u.ident = s.ident)) ∧
    (runs 0x40 →
      let ty := bs.getD 0 0
      let n := imgField bs 4 4
      let legal := 2 ≤ ty ∧ ty ≤ 5 ∧ n ≤ fwLimit ty
      (dbg = 1 → exec .fwBegin s = .next (mbResult s 0x1C 0 [])) ∧
      (dbg = 0 → len ≠ 8 → exec .fwBegin s = .next (mbResult s 0x02 0 [])) ∧
      (dbg = 0 → len = 8 → ¬ legal → exec .fwBegin s = .next (mbResult s 0x11 0 [])) ∧
      (dbg = 0 → len = 8 → legal →
        ∃ u, exec .fwBegin s = .next u ∧ u.kn.result = some (0, 0, []) ∧ u.kn.fwState = 1 ∧ u.kn.fwType = ty ∧
          u.kn.fwLen = n ∧ u.kn.fwBlocks = [] ∧ u = { s with kn := u.kn })) ∧
    (∀ ans, runs 0x41 →
      let i := imgField bs 0 4
      let n := imgField bs 4 4
      let a := imgField bs 0x10 8
      let inside := i < s.fwBlockCount ∧ n = s.fwBlockLen i
      (dbg = 1 → exec (.fwBlock ans) s = .next (mbResult s 0x1C 0 [])) ∧
      (dbg = 0 → len ≠ 24 → exec (.fwBlock ans) s = .next (mbResult s 0x02 0 [])) ∧
      (dbg = 0 → len = 24 → s.kn.fwState ≠ 1 → exec (.fwBlock ans) s = .next (mbResult s 0x10 0 [])) ∧
      (dbg = 0 → len = 24 → s.kn.fwState = 1 → ¬ inside → exec (.fwBlock ans) s = .next (mbResult s 0x13 0 [])) ∧
      (dbg = 0 → len = 24 → s.kn.fwState = 1 → inside → s.shp.warm = true → exec (.fwBlock ans) s = .next s) ∧
      (dbg = 0 → len = 24 → s.kn.fwState = 1 → inside → s.shp.warm = false →
        let failed := fun (u : State) => u.kn.result = some (0x14, 0, []) ∧ u.kn.fwBlocks = s.kn.fwBlocks ∧
          u.rd cxlpBase CXLP_HOSTERR.COUNT = (s.rd cxlpBase CXLP_HOSTERR.COUNT + 1) % 2 ^ 48
        (s.haccs.find? (fun x => x.2.ld == 8) = none →
          exec (.fwBlock ans) s = .next { s with
            haccs := tset s.haccs s.haccNext { ld := 8, kind := .read, addr := a, len := n, owner := .firmware i (imgField bs 8 4) }
            haccNext := s.haccNext + 1 }) ∧
        (∀ id h j crc, s.haccs = [(id, h)] → h.ld = 8 → h.kind = .read → h.owner = .firmware j crc → h.status = 0 → h.pack = 0 →
          s.bridges = 0 →
          (h.taken = 0 → 0 < h.len → s.freeHostRet.isSome = true → s.offered 8 = true →
            bitAt (s.fn 8).cmd 2 = false ∨ s.linkOn = false → ∃ u, exec .hostRetrieverPiece s = .next u ∧ failed u) ∧
          (s.hpieces = [] → exec (.fwBlock ans) s = .next s) ∧
          (∀ pc p, s.hpieces = [(pc, p)] → p.acc = id →
            (∀ d, ans = .data d → d.length ≠ p.len → exec (.fwBlock ans) s = .next s) ∧
            (∀ d, ans = .data d → d.length = p.len → h.taken < h.len → ∃ u, exec (.fwBlock ans) s = .next u ∧ u.kn = s.kn ∧
              u.hpieces = [] ∧ u.haccs = [(id, { h with parts := tset h.parts p.off d, done := h.done + p.len, time := s.ns })]) ∧
            (∀ d, ans = .data d → d.length = p.len → h.taken = h.len →
              let img := bufBytes (tset h.parts p.off d)
              ∃ u, exec (.fwBlock ans) s = .next u ∧ u.haccs = [] ∧ u.hpieces = [] ∧
                (crc32c img ≠ crc → u.kn = { s.kn with result := some (0x12, 0, []) }) ∧
                (crc32c img = crc → u.kn = { s.kn with fwBlocks := tset s.kn.fwBlocks j img, result := some (0, 0, []) })) ∧
            (ans ∈ [HostAns.unsupported, .abort, .poison] → ∃ u, exec (.fwBlock ans) s = .next u ∧ failed u))))) ∧
    (runs 0x42 →
      (dbg = 1 → exec .fwVerify s = .next (mbResult s 0x1C 0 [])) ∧
      (dbg = 0 → len ≠ 0 → exec .fwVerify s = .next (mbResult s 0x02 0 [])) ∧
      (dbg = 0 → len = 0 → s.kn.fwState ≠ 1 → exec .fwVerify s = .next (mbResult s 0x10 0 [])) ∧
      (dbg = 0 → len = 0 → s.kn.fwState = 1 → s.fwCheck ≠ 0 → exec .fwVerify s = .next (mbResult s s.fwCheck 0 [])) ∧
      (dbg = 0 → len = 0 → s.kn.fwState = 1 → s.fwCheck = 0 →
        exec .fwVerify s = .next (mbResult { s with
          kn := { s.kn with fwState := 2, fwDigest := sha256 s.fwImage } } 0 0 (sha256 s.fwImage)))) ∧
    (∀ ok1 ok2, runs 0x43 →
      (dbg = 1 → exec (.fwActivate ok1 ok2) s = .next (mbResult s 0x1C 0 [])) ∧
      (dbg = 0 → len ≠ 32 → exec (.fwActivate ok1 ok2) s = .next (mbResult s 0x02 0 [])) ∧
      (dbg = 0 → len = 32 → s.kn.fwState ≠ 2 → exec (.fwActivate ok1 ok2) s = .next (mbResult s 0x10 0 [])) ∧
      (dbg = 0 → len = 32 → s.kn.fwState = 2 → bs ≠ s.kn.fwDigest →
        exec (.fwActivate ok1 ok2) s = .next (mbResult s 0x1A 0 [])) ∧
      (dbg = 0 → len = 32 → s.kn.fwState = 2 → bs = s.kn.fwDigest →
        ∃ u, exec (.fwActivate ok1 ok2) s = .next u ∧ u.kn.fwState = 3 ∧
          u.kn.result = some (if ok1 = true ∨ ok2 = true then 0 else 0x1B, 0, []) ∧
          u.kn.fwNew = some (s.fwNewImg, ok1 || ok2) ∧ (u.flashImg s.kn.fwType).valid = false ∧
          (∀ ty, ty ≠ s.kn.fwType → u.flashImg ty = s.flashImg ty) ∧ u = { s with kn := u.kn })) ∧
    (runs 0x44 →
      (len ≠ 0 → exec .fwAbort s = .next (mbResult s 0x02 0 [])) ∧
      (len = 0 → ∃ u, exec .fwAbort s = .next u ∧ u.kn.result = some (0, 0, []) ∧ u.kn.fwState = 0 ∧
        u.kn.fwBlocks = [] ∧ u = { s with kn := u.kn })) ∧
    (∀ op, s.kn.running = some op → s.kn.creating = [] → s.kn.deferWarm = false → s.kn.deferParts = [] →
      (∀ res det x, s.kn.result = some (res, det, x) → s.shp.warm = true → s.tearing ≠ [] ∨ (op = 0x31 ∧ res = 0) →
        ∃ u, exec .knlDone s = .next u ∧ u.kn.running = some op ∧ u.kn.result = s.kn.result) ∧
      (∀ res det x, s.kn.result = some (res, det, x) → (∀ b ∈ x, b < 256) → x.length ≤ 3840 → s.shp.warm = false →
        ∃ u, exec .knlDone s = .next u ∧ u.kn.running = none ∧ u.kn.result = none ∧
          u.rd knlBase KNL_MBSTAT.BUSY = 0 ∧ u.rd knlBase KNL_MBSTAT.DONE = 1 ∧
          u.rd knlBase KNL_MBSTAT.RESULT = res % 2 ^ 8 ∧ u.rd knlBase KNL_MBSTAT.DETAIL = det % 2 ^ 8 ∧
          u.rd knlBase KNL_MBSTAT.OUTLEN = x.length ∧ mread u.mem knlBuf x.length = x ∧
          (∀ img, s.kn.fwNew = some (img, true) → u.flashImg s.kn.fwType = img ∧ u.kn.fwState = 0 ∧
            u.svnCount s.kn.fwType = max (s.svnCount s.kn.fwType) img.svn) ∧
          (s.kn.fwNew = none → u.ident = s.ident ∧ u.kn.flash = s.kn.flash) ∧
          (∀ k, k < 8 → (s.part k).life = 3 → (u.part k).life = 0 ∧ (u.part k).count = (s.part k).count ∧
            tget u.kn.xts k = none ∧ tget u.kn.blobs k = none ∧ (∀ h ∈ s.partStacks k, u.rd (hbmcBase h) HBMC_DOMAIN.VALID = 0) ∧
            bitAt (u.rd shapeBase SHAPE_STAT.PARTS) k = false ∧ u.offered k = false) ∧
          (op = 0x31 → res = 0 → u.rd knlBase KNL_STATE.DEBUG = 1 ∧ u.kn.bak = none ∧ u.kn.kwk = false ∧ u.kn.xts = [] ∧ u.kn.blobs = [] ∧
            u.kn.scope = imgField bs 0x30 4 ∧ u.kn.linkIde = none ∧
            ∀ n, n < 8 → u.rd (cxlpLBase n) CXLP_LDSTAT.IDE_IO = 0 ∧ (u.lkState n = lkDISABLED ∨ u.lkState n = lkDETECT))) ∧
      (s.kn.result = none → mbAssigned op = false →
        ∃ u, exec .knlDone s = .next u ∧ u.kn.running = none ∧ u.rd knlBase KNL_MBSTAT.DONE = 1 ∧
          u.rd knlBase KNL_MBSTAT.BUSY = 0 ∧ u.rd knlBase KNL_MBSTAT.RESULT = 1))

/-- DOZE and, by the model's reading (assumption 83), STANDBY are refused with BUSY while a partition works or an
entry is under way; an accepted one waits for the requests in flight, and then DOZE keeps HBM and the partitions, but
no key of the compute logic, and STANDBY keeps neither. A power-on reset, whatever starts it, leaves memory zero, no
partition and the through-paths closed, and ends in D0, with the straps sampled and the spares of the bridges and of
the stacks in the place of what failed at training, or in the failed state with its code (what a boot finds and the
order of the codes are the model's choice, assumptions 101 and 109). A Shepherd reset returns Shepherd's registers to
default and leaves compute alone; with an image that fails its check, which shows code 7 (the model's reading,
assumption 84), Shepherd stays in its ROM and starts no power-on. PERST# holds the compute logic in a warm reset,
which an activation window defers, and its release ends it; a hot reset does both; HBM is kept. A wake from Doze with
its record keeps HBM and the partitions, and one that fires while an entry is under way waits for it. Loss of 12 V and
the analog trip go to Standby with their cause, loss of the standby rail to Off, which shows PSTATE 2 (the model's
choice, assumption 90), and the rails' return powers the device on. Where a command meets none of this, nothing else
changes (the model's choice, assumption 6). (R487, R490, R491, R493, R495, R498, R519, R520, R521, R522, R528, R530) -/
def Obligations.ResetsAndPower : Prop :=
  ∀ (s : State) (c : Src) (code : Boot),
    let ps := s.rd shpBase SHP_STATE.PSTATE
    let bad := s.bootCode code [2, 3, 4, 5]
    let boots := fun (u : State) => u.mem = [] ∧ u.parts = [] ∧ u.rd shpBase SHP_STATE.PSTATE = 0 ∧
      u.rd shpBase SHP_TPSTAT.CLOSED = 15 ∧ u.rd shpBase SHP_STATE.FAILCODE = bad ∧ u.live = decide (bad = 0) ∧
      (bad = 0 → u.bridges = 0 ∧ u.kn.straps = code.straps.getD s.ident.straps ∧ (∀ b, b < 4 → tgetD u.bridgeSp b [] = failedChans code b) ∧
        (∀ h pc pin, (h, pc, pin) ∈ code.pins → h < 12 → pc < 32 → pin < 36 →
          u.rd (hbmcBase h) (HBMC_REMAP.SPARED pc) = 1 ∧ u.rd (hbmcBase h) (HBMC_REMAP.SPIN pc) = pin))
    let hbm := fun (u : State) => ∀ a, a < 0xC000000000 → mget u.mem a = mget s.mem a
    let lives := fun (u : State) => ∀ k, (s.part k).life = 2 →
      (u.part k).life = 2 ∧ (u.part k).section_ = (s.part k).section_ ∧ (u.part k).count = (s.part k).count
    let standby := fun (u : State) => u.rd shpBase SHP_STATE.PSTATE = 2 ∧ u.mem = [] ∧ u.parts = [] ∧ u.live = false ∧
      u.ident = s.ident ∧ u.kn.flash = s.kn.flash
    let images := s.imgCode 4 = 0 ∧ s.imgCode 5 = 0 ∧ code.code ≠ 10
    (s.live = true → s.accepts c (shpBase + 8) 4 →
      (s.dozeBusy = true → ∀ i ∈ [Instr.doze c, .standby c],
        ∃ u, exec i s = .next u ∧ u.rd shpBase SHP_CMD.RESULT = 1 ∧
          regsBut s u [fkey shpBase SHP_CMD.OP, fkey shpBase SHP_CMD.RESULT] ∧
          u = { s with regs := u.regs, out := s.out ++ [.compl 0 []] }) ∧
      (s.dozeBusy = false →
        (s.inFlight = true → s.hostOpen = true → ∀ i ∈ [(Instr.doze c, 1), (.standby c, 2)],
          ∃ u, exec i.1 s = .next u ∧ u.shp = { s.shp with dozing := i.2 } ∧ u.rd shpBase SHP_CMD.RESULT = 0 ∧ u.live = true ∧
            u.hostOpen = false ∧ u = { s with regs := u.regs, shp := u.shp, out := u.out }) ∧
        (s.inFlight = false →
          (∃ u, exec (.doze c) s = .next u ∧ u.rd shpBase SHP_STATE.PSTATE = 1 ∧ u.rd shpBase SHP_CMD.RESULT = 0 ∧
            u.shp.retained = true ∧ u.live = false ∧ u.ident = s.ident ∧ u.kn.xts = [] ∧ u.kn.linkIde = none ∧
            u.kn.kwk = false ∧ hbm u ∧ lives u) ∧
          (∃ u, exec (.standby c) s = .next u ∧ standby u ∧ u.rd shpBase SHP_CMD.RESULT = 0))) ∧
      (∃ u, exec (.powerCycle c code) s = .next u ∧ boots u) ∧
      (∃ u, exec (.shpReset c) s = .next u ∧ u.rd shpBase SHP_STATE.PSTATE = 0 ∧ u.rd shpBase SHP_LEASH.LIMIT = 1000 ∧
        u.rd shpBase SHP_CMD.RESULT = 0 ∧ u.mem = s.mem ∧ u.parts = s.parts)) ∧
    (∀ i ∈ [Instr.shpRst, .shepherdHeartbeatFail],
      (s.shp.off = true → exec i s = .next s) ∧
      (s.shp.off = false →
        ∃ u, exec i s = .next u ∧ u.rd shpBase SHP_STATE.PSTATE = ps ∧ u.rd shpBase SHP_LEASH.LIMIT = 1000 ∧
          u.rd shpBase SHP_STATE.FAILCODE = (if s.imgCode 3 = 0 then s.rd shpBase SHP_STATE.FAILCODE else 7) ∧
          u.shp.win = [] ∧ u.shp.retained = false ∧ u.shp.rom = decide (s.imgCode 3 ≠ 0) ∧
          (s.imgCode 3 ≠ 0 → u.rd shpBase SHP_TPSTAT.CLOSED = 15 ∧ u.live = false) ∧ u.mem = s.mem ∧ u.parts = s.parts)) ∧
    (s.rd shpBase SHP_WAKE.PIN = 0 ∨ (s.mayWake = false ∧ (s.shp.dozing = 0 ∨ s.shp.dozeWake.isSome = true)) →
      exec (.wake code) s = .next s) ∧
    (s.mayWake = false → s.rd shpBase SHP_WAKE.PIN = 1 → s.shp.dozing ≠ 0 → s.shp.dozeWake = none →
      exec (.wake code) s = .next { s with shp := { s.shp with dozeWake := some (1, code) } }) ∧
    (s.mayWake = true → s.rd shpBase SHP_WAKE.PIN = 1 →
      ∃ u, exec (.wake code) s = .next u ∧ u.rd shpBase SHP_WAKE.LASTSRC = 1 ∧
        (ps = 2 ∨ s.shp.retained = false → boots u) ∧
        (ps = 1 → s.shp.retained = true → s.shp.failed = false → s.shp.warm = false →
          u.rd shpBase SHP_STATE.PSTATE = 0 ∧ u.live = decide (s.bootCode { code with pins := [] } [2, 3, 4, 5] = 0) ∧ hbm u ∧
          ∀ k, u.part k = s.part k)) ∧
    (s.live = true → s.shp.p12v = true → s.kn.fwState ≠ 3 →
      ∃ u, exec .perstAssert s = .next u ∧ u.shp.perst = true ∧ u.shp.warm = true ∧ u.live = false ∧ u.linkOn = false ∧
        u.rd shpBase SHP_TPSTAT.CLOSED = 15 ∧ hbm u ∧ lives u) ∧
    (s.live = true → s.shp.p12v = true → s.kn.fwState = 3 →
      ∃ u, exec .perstAssert s = .next u ∧ u.shp.perst = true ∧ u.kn.deferWarm = true ∧ u.linkOn = false ∧ u.live = true) ∧
    (s.live = false ∨ s.shp.p12v = false → exec .perstAssert s = .next { s with shp := { s.shp with perst := true } }) ∧
    (s.shp.perst = false → exec (.perstDeassert code) s = .next s) ∧
    (s.shp.perst = true → s.shp.warm = true →
      ∃ u, exec (.perstDeassert code) s = .next u ∧ u.shp.perst = false ∧ u.shp.warm = false ∧ hbm u ∧
        (images → ps = 0 → s.shp.failed = false → s.shp.off = false → u.live = true ∧ u.runImg 4 = s.flashImg 4) ∧
        (code.code = 10 → s.imgCode 4 = 0 → s.imgCode 5 = 0 → u.live = false ∧ u.rd shpBase SHP_STATE.FAILCODE = 10)) ∧
    (s.shp.perst = true → s.shp.warm = false →
      (s.kn.deferWarm = true → exec (.perstDeassert code) s =
        .next { s with shp := { s.shp with perst := false }, kn := { s.kn with deferCode := code } }) ∧
      (s.kn.deferWarm = false →
        s.rd shpBase SHP_WAKE.PERST = 0 ∨ (s.mayWake = false ∧ (s.shp.dozing = 0 ∨ s.shp.dozeWake.isSome = true)) →
        exec (.perstDeassert code) s = .next { s with shp := { s.shp with perst := false } }) ∧
      (s.kn.deferWarm = false → s.mayWake = false → s.rd shpBase SHP_WAKE.PERST = 1 → s.shp.dozing ≠ 0 → s.shp.dozeWake = none →
        exec (.perstDeassert code) s = .next { s with shp := { s.shp with perst := false, dozeWake := some (2, code) } }) ∧
      (s.kn.deferWarm = false → s.mayWake = true → s.rd shpBase SHP_WAKE.PERST = 1 →
        ∃ u, exec (.perstDeassert code) s = .next u ∧ u.shp.perst = false ∧ u.rd shpBase SHP_WAKE.LASTSRC = 2)) ∧
    (s.live = true → s.linkOn = true → s.shp.perst = false → s.kn.fwState ≠ 3 → s.kn.deferWarm = false → images →
      ∃ u, exec (.hotReset code) s = .next u ∧ u.live = true ∧ u.linkOn = false ∧ hbm u ∧ lives u) ∧
    (s.live = true → s.linkOn = true → s.kn.fwState = 3 →
      ∃ u, exec (.hotReset code) s = .next u ∧ u.kn.deferWarm = true ∧ u.kn.deferCode = code ∧ u.linkOn = false ∧ u.live = true) ∧
    (∃ u, exec .standbyRailLoss s = .next u ∧ standby u ∧ u.shp.off = true ∧ u.rd shpBase SHP_TPSTAT.CLOSED = 0) ∧
    (s.shp.off = false → exec (.standbyRailRise code) s = .next s) ∧
    (s.shp.off = true → s.shp.failed = false → s.imgCode 3 = 0 →
      ∃ u, exec (.standbyRailRise code) s = .next u ∧ u.shp.off = false ∧
        (s.shp.p12v = true → boots u ∧ u.rd shpBase SHP_WAKE.LASTSRC = 12) ∧
        (s.shp.p12v = false → u.rd shpBase SHP_STATE.PSTATE = ps ∧ u.rd shpBase SHP_WAKE.AUTO = 1 ∧
          u.rd shpBase SHP_TPSTAT.CLOSED = 15)) ∧
    (s.shp.off = true → s.imgCode 3 ≠ 0 →
      ∃ u, exec (.standbyRailRise code) s = .next u ∧ u.shp.off = false ∧ u.shp.rom = true ∧ u.shp.failed = true ∧
        u.rd shpBase SHP_STATE.FAILCODE = 7 ∧ u.rd shpBase SHP_STATE.PSTATE = ps ∧ u.rd shpBase SHP_TPSTAT.CLOSED = 15) ∧
    (s.shp.off = false → ps ≠ 2 →
      ∃ u, exec .p12vLoss s = .next u ∧ standby u ∧ u.shp.p12v = false ∧ u.rd shpBase SHP_STATE.LAST = 6) ∧
    (s.shp.off = true ∨ ps = 2 → exec .p12vLoss s = .next { s with shp := { s.shp with p12v := false } }) ∧
    (s.shp.off = false → s.shp.rom = false → ps = 2 → s.rd shpBase SHP_WAKE.AUTO = 1 →
      ∃ u, exec (.p12vInTolerance code) s = .next u ∧ u.shp.p12v = true ∧ boots u ∧ u.rd shpBase SHP_WAKE.LASTSRC = 12) ∧
    (s.shp.off = true ∨ s.shp.rom = true ∨ ps ≠ 2 ∨ s.rd shpBase SHP_WAKE.AUTO = 0 →
      exec (.p12vInTolerance code) s = .next { s with shp := { s.shp with p12v := true } }) ∧
    (∀ d, d < 2 →
      (s.shp.off = false → s.shp.rom = false → ps = 0 →
        ∃ u, exec (.pllLoss d code) s = .next u ∧ boots u ∧ u.rd shpBase SHP_STATE.LAST = 5) ∧
      (s.shp.off = true ∨ s.shp.rom = true ∨ ps ≠ 0 → exec (.pllLoss d code) s = .next s)) ∧
    (s.shp.off = false → ps = 0 →
      ∃ u, exec .analogTrip s = .next u ∧ standby u ∧ u.rd shpBase SHP_STATE.LAST = 3 ∧ u.shp.fault = true) ∧
    (s.shp.off = true ∨ ps ≠ 0 → exec .analogTrip s = .next s)

/-- A write of HOSTCAP that passes its checks sets the cap. The applied level moves one step toward the request once
its interval has passed, the first fall after a millisecond too (the model's reading, assumption 88). A power sample
above the limit raises the power request, one below it for a millisecond lowers it, and each thousandth sample shows
the average (the model's reading, assumption 87). Each tick notes since when the conditions of partition idle hold,
and a partition for which they have held for the DELAY of a die has the packs gated that this die allows, and no other
(the model's reading, assumption 89). A sensor sample shows itself, its average over the window and the comparator's
alarm, and one at the trip point goes to Standby with its cause, even of a sensor that is off, whose samples do
nothing else; a write of a sensor's configuration sets it and empties its window. A heartbeat write restarts its
timer. Where a command meets none of this, nothing changes (the model's choice, assumption 6). (R514, R515, R518,
R524, R525, R527, R528, R529) -/
def Obligations.PowerAndSensors : Prop :=
  ∀ (s : State) (c : Src) (d : Nat), s.live = true → d < 2 →
    let b := pmuBase d
    let p := s.pmu d
    let lv := s.rd b PMU_THROT.LEVEL
    let rq := s.throtReq d
    let pr := s.rd b PMU_THROT.PWRREQ
    (∀ v, s.accepts c (b + 8) 4 →
      ∃ u, exec (.hostcap c d v) s = .next u ∧ u.rd b PMU_THROT.HOSTCAP = v % 16 ∧
        regsBut s u [fkey b PMU_THROT.HOSTCAP] ∧
        u = { s with regs := u.regs, pmus := u.pmus, out := s.out ++ [.compl 0 []] }) ∧
    (lv < rq → p.stepAt = 0 ∨ p.stepAt + 70000 ≤ s.clock →
      exec (.throttleRamp d) s = .next ((s.wr b PMU_THROT.LEVEL (lv + 1)).setPmu d { p with stepAt := s.clock })) ∧
    (rq < lv → p.stepAt + 7000000 ≤ s.clock →
      exec (.throttleRamp d) s = .next ((s.wr b PMU_THROT.LEVEL (lv - 1)).setPmu d { p with stepAt := s.clock })) ∧
    (rq = lv → exec (.throttleRamp d) s = .next s) ∧
    (∀ w,
      let lim := s.rd b PMU_PLIMIT.WATTS
      let high := s.rd b PMU_PLIMIT.EN = 1 ∧ lim < w
      let under := 100 * w < 95 * lim ∧ p.fallAt + 7000000 ≤ s.clock
      ∃ u, exec (.powerSample d w) s = .next u ∧
        (high → u.rd b PMU_THROT.PWRREQ = min 15 (pr + 1)) ∧ (¬ high → under → u.rd b PMU_THROT.PWRREQ = pr - 1) ∧
        (¬ high → ¬ under → u.rd b PMU_THROT.PWRREQ = pr) ∧
        (p.count + 1 = 1000 → u.rd b PMU_POWER.WATTS = (p.sum + w) / 1000 % 2 ^ 12) ∧
        regsBut s u [fkey b PMU_THROT.PWRREQ, fkey b PMU_POWER.WATTS] ∧ u = { s with regs := u.regs, pmus := u.pmus }) ∧
    (∀ k, k < 8 →
      (s.partIdle k = false ∨ (s.part k).idleAt = none → exec (.partitionIdle k) s = .next s) ∧
      (s.pending = [] → s.shp.dozing = 0 → s.active k = true → (∀ q, okQueue q = true → s.leashRuns q = false) →
        ∃ u, step s = .next u ∧ (u.part k).idleAt =
          (if s.partIdle k then some ((s.part k).idleAt.getD s.clock) else none)) ∧
      (∀ since, s.partIdle k = true → (s.part k).idleAt = some since →
        ∃ u, exec (.partitionIdle k) s = .next u ∧
          (∀ j, j < 16 →
            let g := pmuBase (j / 8)
            bitAt (u.rd g PMU_GATESTAT.PACKS) (j % 8) = (bitAt (s.rd g PMU_GATESTAT.PACKS) (j % 8) ||
              (decide (j ∈ s.partPacks k) && bitAt (s.rd g PMU_PIDLE.EN) k &&
                decide (since + 7000 * max 1 (s.rd g PMU_PIDLE.DELAY) ≤ s.clock)))) ∧
          regsBut s u [fkey (pmuBase 0) PMU_GATESTAT.PACKS, fkey (pmuBase 1) PMU_GATESTAT.PACKS] ∧
          u = { s with regs := u.regs, tiles := u.tiles })) ∧
    (∀ i v code, i < 96 → v < 2 ^ 16 → s.shp.rom = false →
      let lg := s.rd shpBase (SHP_SCFG.NLOG2 i)
      let old := tgetD s.shp.win i []
      let win := if old = [] then List.replicate (2 ^ lg) v else (v :: old).take (2 ^ lg)
      let f := (win.map (sext 16)).foldl (· + ·) (0 : Int) / ((2 ^ lg : Nat) : Int)
      let hot := (i < 40 ∧ 1840 ≤ sext 16 v) ∨ (40 ≤ i ∧ i < 52 ∧ 1680 ≤ sext 16 v)
      let alarm := compareSensor (s.rd shpBase (SHP_SCFG.DIR i) != 0) (s.rd shpBase (SHP_SVAL.ALARM i) != 0) f
        (sext 16 (s.rd shpBase (SHP_SCFG.HI i))) (sext 16 (s.rd shpBase (SHP_SCFG.LO i)))
      (s.rd shpBase (SHP_SCFG.RATE i) = 3 → ¬ hot → exec (.sensorSample i v code) s = .next s) ∧
      (s.rd shpBase (SHP_SCFG.RATE i) = 3 → hot → ∃ u, exec (.sensorSample i v code) s = .next u ∧
        u.rd shpBase SHP_STATE.PSTATE = 2 ∧ u.rd shpBase SHP_STATE.LAST = (if i < 40 then 1 else 2) ∧
        u.rd shpBase SHP_STATE.SENSOR = i ∧ u.mem = []) ∧
      (s.rd shpBase (SHP_SCFG.RATE i) ≠ 3 →
      ∃ u, exec (.sensorSample i v code) s = .next u ∧ u.rd shpBase (SHP_SVAL.SAMPLE i) = v ∧
        (hot → u.rd shpBase SHP_STATE.PSTATE = 2 ∧ u.rd shpBase SHP_STATE.LAST = (if i < 40 then 1 else 2) ∧
          u.rd shpBase SHP_STATE.SENSOR = i ∧ u.mem = []) ∧
        (¬ hot → u.rd shpBase (SHP_SVAL.AVG i) = toBits 16 f ∧ (u.rd shpBase (SHP_SVAL.ALARM i) = 1 ↔ alarm = true) ∧
          tgetD u.shp.win i [] = win ∧
          (alarm = true → bitAt (s.rd shpBase (SHP_SCFG.ACT i)) 2 = true →
            u.rd shpBase SHP_STATE.PSTATE = 2 ∧ u.rd shpBase SHP_STATE.LAST = 4 ∧ u.rd shpBase SHP_STATE.SENSOR = i)))) ∧
    (∀ i v, i < 96 → s.accepts c (shpBase + 0x400 + 0x10 * i) 8 →
      ∃ u, exec (.shpScfg c i v) s = .next u ∧ u.rd shpBase (SHP_SCFG.RATE i) = v % 4 ∧
        u.rd shpBase (SHP_SCFG.NLOG2 i) = v / 4 % 8 ∧ u.rd shpBase (SHP_SCFG.DIR i) = v / 32 % 2 ∧
        u.rd shpBase (SHP_SCFG.ACT i) = v / 64 % 16 ∧ u.rd shpBase (SHP_SCFG.TLVL i) = v / 1024 % 16 ∧
        u.rd shpBase (SHP_SCFG.HI i) = v / 2 ^ 32 % 2 ^ 16 ∧ u.rd shpBase (SHP_SCFG.LO i) = v / 2 ^ 48 % 2 ^ 16 ∧
        tget u.shp.win i = none ∧ u = { s with regs := u.regs, shp := u.shp, out := s.out ++ [.compl 0 []] }) ∧
    (∀ v, s.accepts c (shpBase + 0x38) 4 →
      exec (.shpHbeat c v) s =
        .next { s with shp := { s.shp with hostBeat := s.clock, hostLive := true }, out := s.out ++ [.compl 0 []] }) ∧
    exec .kennelHeartbeat s = .next { s with shp := { s.shp with knlBeat := s.clock, knlLive := true } }

/-- In D0 outside an activation window, a warm reset included, a Kennel timer that has reached LIMIT sets FIRED with
cause 1, stops until a heartbeat, and with KRESET starts a power-on reset with cause 7; a host timer that has reached
it sets FIRED with cause 2 and halts every queue; a channel in use that fails takes its bridge out of service and
halts every queue, and one that is not in use changes nothing (which spare replaces which channel is the model's
choice, assumption 142). Without a reset every active partition then has a Howl in progress. (R25, R493, R529, R535,
R538) -/
def Obligations.LeashAndBridge : Prop :=
  ∀ s : State, s.rd shpBase SHP_STATE.PSTATE = 0 → s.shp.failed = false → s.shp.off = false → s.shp.rom = false →
    let late := fun t => t + 7000 * (1000 * max 10 (s.rd shpBase SHP_LEASH.LIMIT)) ≤ s.clock
    let howls := fun (u : State) => ∀ k, k < 8 → s.active k = true → (u.part k).howl.isSome = true
    let halts := fun (u : State) => ∀ p, p < 16 → ∀ q ∈ s.packQueues p, u.rd (qBase q) SEQ_QCTRL.HALT = 1
    (∀ code, s.kn.fwState ≠ 3 → s.shp.knlLive = true → s.rd shpBase SHP_LEASH.KNL_EN = 1 → late s.shp.knlBeat →
      ∃ u, exec (.deviceLeashKnl code) s = .next u ∧ u.rd shpBase SHP_LEASH.FIRED = 1 ∧ u.rd shpBase SHP_LEASH.CAUSE = 1 ∧
        (s.rd shpBase SHP_LEASH.KRESET = 0 → u.shp.knlLive = false ∧ howls u) ∧
        (s.rd shpBase SHP_LEASH.KRESET = 1 → u.mem = [] ∧ u.parts = [] ∧ u.rd shpBase SHP_STATE.LAST = 7 ∧
          u.live = decide (s.bootCode code [2, 3, 4, 5] = 0))) ∧
    (s.kn.fwState ≠ 3 → s.shp.hostLive = true → s.rd shpBase SHP_LEASH.HOST_EN = 1 → late s.shp.hostBeat →
      ∃ u, exec .deviceLeashHost s = .next u ∧ u.rd shpBase SHP_LEASH.FIRED = 1 ∧ u.rd shpBase SHP_LEASH.CAUSE = 2 ∧
        u.shp.hostLive = false ∧ howls u ∧ halts u) ∧
    (∀ b ch, s.live = true → b < 4 → bitAt s.bridges b = false →
      (s.chanUsed b ch = false → exec (.bridgeFail b ch) s = .next s) ∧
      (s.chanUsed b ch = true → ∃ u, exec (.bridgeFail b ch) s = .next u ∧ u.bridges = s.bridges + 2 ^ b ∧
        tget u.bridgeCh b = some ch ∧ howls u ∧ halts u))

/-- The link comes up, unless a deferred warm reset waits, with its rate, width and mode and the LDs of active
partitions that have LD are offered; it goes down with its IDE streams ended. A configuration request is answered with
Request Retry Status while the device does not serve, and not at all while the link is down or an entry into Doze or
Standby is under way; at a function that is not offered a read has Unsupported Request and a write is logged, and one
outside the stream (what the IDE rule covers is the model's reading, assumption 67) or during a teardown is DENIED; a
read answers what the register holds, and the command register, the BARs and the writable words of the capabilities
(their offsets and masks are presumed, assumption 71) keep what is written, with Bus Master Enable. A legal decoder
that fits, decoder 1 behind decoder 0's span (presumed, assumption 70), is committed, another gets Error Not
Committed. A snoop is answered. A commit, an unmasking or a reset that may not pass is counted and changes no decoder,
vector or queue. A function-level reset keeps the partition's existence and count, clears its queues and scratch, and
is deferred in an activation window. Where a command meets none of this, nothing changes (the model's choice,
assumption 6). (R461, R462, R463, R466, R471, R477, R485, R489, R492, R496, R509) -/
def Obligations.HostLinkAndConfig : Prop :=
  ∀ (s : State) (n : Nat) (ide : Bool), n < 9 →
    let open_ := s.offered n = true ∧ s.closing n = false ∧ s.ideBlocks n 0 ide = false
    let ioErr := fun (u : State) => u.rd cxlpBase CXLP_IOERR.COUNT = (s.rd cxlpBase CXLP_IOERR.COUNT + 1) % 2 ^ 48
    (∀ rate width mode, s.live = true → s.linkOn = false → s.shp.perst = false → s.kn.deferWarm = false → 1 ≤ rate → rate ≤ 3 → 1 ≤ width → width ≤ 3 →
      mode = 1 ∨ mode = 2 →
      ∃ u, exec (.cxlLinkUp rate width mode 0) s = .next u ∧ u.rd cxlpBase CXLP_LSTAT.RATE = rate ∧
        u.rd cxlpBase CXLP_LSTAT.WIDTH = width ∧ u.rd cxlpBase CXLP_LSTAT.MODE = mode ∧ u.rd cxlpBase CXLP_LSTAT.REASON = 0 ∧
        u.rd cxlpBase CXLP_LSTAT.CACHE = (if mode = 1 then s.rd cxlpBase CXLP_CFG.CACHE_EN else 0) ∧
        (∀ j, j < 8 → (u.offered j = true ↔ s.active j = true ∧ s.partLdBit j = true ∧ (mode = 2 ∨ j = 0))) ∧
        u = { s with regs := u.regs }) ∧
    (∀ rate width mode reason, s.live = true → s.linkOn = false → s.shp.perst = false →
      (s.kn.deferWarm = true → exec (.cxlLinkUp rate width mode reason) s = .next s) ∧
      (s.kn.deferWarm = false → reason = 1 ∨ reason = 2 →
      exec (.cxlLinkUp rate width mode reason) s = .next (s.wr cxlpBase CXLP_LSTAT.REASON reason))) ∧
    (s.linkOn = false → exec .cxlLinkDown s = .next s ∧ exec .snoop s = .next s) ∧
    (s.live = true → s.linkOn = true →
      exec .snoop s = .next { s with out := s.out ++ [.answer haSnoop []] } ∧
      ∃ u, exec .cxlLinkDown s = .next u ∧ u.linkOn = false ∧ u.rd cxlpBase CXLP_LSTAT.REASON = 3 ∧ u.cacheOn = false ∧
        u.linkIde = false ∧ u.kn.linkIde = none ∧
        (∀ j, j < 8 → u.rd (cxlpLBase j) CXLP_LDSTAT.IDE_IO = 0 ∧ (u.fn j).ideKey = none ∧ u.offered j = s.offered j) ∧
        (∀ id a, s.haccs = [(id, a)] → a.status = 0 →
          u.rd cxlpBase CXLP_HOSTERR.COUNT = (s.rd cxlpBase CXLP_HOSTERR.COUNT + 1) % 2 ^ 48)) ∧
    (∀ w reg v, s.hostOpen = false → exec (.configRequest n w reg v ide) s = .next s) ∧
    (∀ w reg v, s.hostOpen = true → s.live = false →
      exec (.configRequest n w reg v ide) s = .next { s with out := s.out ++ [.answer haRetry []] }) ∧
    (∀ reg v, s.hostOpen = true → s.live = true → s.offered n = false →
      exec (.configRequest n false reg v ide) s = .next { s with out := s.out ++ [.answer haUR []] } ∧
      ∃ u, exec (.configRequest n true reg v ide) s = .next u ∧ ioErr u ∧ u.fns = s.fns) ∧
    (∀ w reg v, s.hostOpen = true → s.live = true → s.offered n = true → ¬ open_ →
      ∃ u l, exec (.configRequest n w reg v ide) s = .next u ∧ ioErr u ∧
        (w = false → u.out = l ++ [.answer haCA []]) ∧ (u.fn n).cmd = (s.fn n).cmd) ∧
    (∀ reg v, s.hostOpen = true → s.live = true → open_ →
      (exec (.configRequest n false reg v ide) s = .next { s with
        out := s.out ++ [.answer haData (leBytes 4 ((s.cfgRead n reg).getD (Config.cfgWord n reg).toNat))] }) ∧
      (∃ u l, exec (.configRequest n true reg v ide) s = .next u ∧ u.out = s.out ++ l ++ [.answer haDone []] ∧
        (tgetD s.msixPend n [] = [] → l = []) ∧ (∀ j, j ≠ n → u.fn j = s.fn j) ∧
        (∀ m d, (reg, m, d) ∈ cfgRw → tget (u.fn n).cfg reg = some (Nat.land v m)) ∧
        (reg = 0x04 → (u.fn n).cmd = v % 8 ∧ (n < 8 → u.rd (cxlpLBase n) CXLP_LDSTAT.BME = v / 4 % 2)) ∧
        (reg = 0x18 → (u.fn n).bar2 =
          ((s.fn n).bar2 / 2 ^ 32 * 2 ^ 32 + v % 2 ^ 32) % 2 ^ 64 / 2 ^ 32 * 2 ^ 32) ∧
        (reg = 0x20 → (u.fn n).bar4 =
          ((s.fn n).bar4 / 2 ^ 32 * 2 ^ 32 + v % 2 ^ 32) % 2 ^ 64 / 2 ^ 23 * 2 ^ 23) ∧
        regsBut s u [fkey (cxlpLBase n) CXLP_LDSTAT.BME, fkey (cxlpLBase n) CXLP_LDMSI.COUNT] ∧
        u = { s with regs := u.regs, fns := u.fns, msixPend := u.msixPend, out := u.out })) ∧
    (∀ dec base size ways gran skip, s.live = true → s.hostOpen = true → n < 8 → dec < 2 →
      let commit := Instr.hdmCommit { ld := n, ide := ide } dec base size ways gran skip
      let h := tgetD (s.fn n).hdm dec {}
      let h0 := tgetD (s.fn n).hdm 0 {}
      let entry := fun ok bad => Hdm.mk base size ways gran skip ok bad false
      let legal := ways ∈ [1, 2, 3, 4, 6, 8, 12] ∧ gran ∈ [256, 512, 1024, 2048, 4096, 8192, 16384] ∧
        base % 2 ^ 28 = 0 ∧ size % 2 ^ 28 = 0 ∧ size ≠ 0 ∧ size % ways = 0
      let before := if dec = 1 ∧ h0.committed = true then h0.skip + h0.size / h0.ways else 0
      let fits := before + (skip + size / ways) ≤ (s.partStacks n).length * 2 ^ 36
      (open_ → h.committed = true → exec commit s = .next s) ∧
      (open_ → h.committed = false →
        ∃ u, exec commit s = .next u ∧
          (legal → fits → tget (u.fn n).hdm dec = some (entry true false) ∧ u.rd (cxlpLBase n) CXLP_LDSTAT.HDM = 1) ∧
          (¬ (legal ∧ fits) → tget (u.fn n).hdm dec = some (entry false true) ∧ u.regs = s.regs) ∧
          (∀ j, j ≠ n → u.fn j = s.fn j) ∧ u = { s with regs := u.regs, fns := u.fns }) ∧
      (∀ vec, vec < 2048 → ¬ open_ →
        ∀ i ∈ [commit, .msixUnmask { ld := n, ide := ide } vec, .functionLevelReset { ld := n, ide := ide }],
          ∃ u, exec i s = .next u ∧ ioErr u ∧ (u.fn n).hdm = (s.fn n).hdm ∧ u.msixOpen = s.msixOpen ∧
            memButEv s u (some n) ∧ regsButEv s u [])) ∧
    (s.live = true → s.hostOpen = true → n < 8 → open_ →
      (s.kn.fwState = 3 → ∃ u, exec (.functionLevelReset { ld := n, ide := ide }) s = .next u ∧ n ∈ u.kn.deferParts ∧ u = { s with kn := u.kn }) ∧
      (s.kn.fwState ≠ 3 → ∃ u, exec (.functionLevelReset { ld := n, ide := ide }) s = .next u ∧ (u.part n).life = (s.part n).life ∧
        (u.part n).count = (s.part n).count ∧ (u.part n).section_ = (s.part n).section_ ∧ u.active n = s.active n ∧
        u.rd (cxlpLBase n) CXLP_LDSTAT.BME = 0 ∧
        (∀ p ∈ s.partPacks n, ∀ x, x < 9 * 0x400000 → mget u.mem (scratchBase (9 * p) + x) = 0) ∧
        (∀ q ∈ s.partQueues n, u.queue q = {} ∧ u.rd (qBase q) SEQ_QCTRL.EN = 0) ∧
        (s.active n = true → u.rd (cenBase n) (CEN_PH_START.TIME 0) = s.ns % 2 ^ 64)))

/-- Through an offered function whose IDE rule is met, a BAR0 access does what a register access of the function's
Collar does, a BAR2 access reads or writes the bytes of its partition's awake scratch, a doorbell write adds to a
counter of the partition and a read answers its value, and an MSI-X word keeps what is written (its access rules are
the model's reading, assumption 37). A CXL.mem access through a committed decoder (its match is presumed, assumption
70) reads or writes the partition's HBM. A component register (their offsets are presumed, assumption 35) answers its
word, an offset of BAR0 above them answers Unsupported Request (assumption 96), and a decoder's Commit bit commits it
or sets Error Not Committed. What fails, as outside the stream or during a teardown, where an address that the target
does not have comes first (the model's reading, assumption 138), is counted, and a read is answered with Unsupported
Request for BAD_ADDR, a Completer Abort otherwise, or poison with zeros. (R463, R464, R466, R467, R468, R470, R471,
R472, R485) -/
def Obligations.HostAccesses : Prop :=
  ∀ (s : State) (n : Nat) (ide : Bool), s.live = true → s.hostOpen = true → n < 9 → s.offered n = true →
    let ioErr := fun (u : State) => u.rd cxlpBase CXLP_IOERR.COUNT = (s.rd cxlpBase CXLP_IOERR.COUNT + 1) % 2 ^ 48
    let part := if n < 8 then some n else none
    let tells := fun (u : State) tag bs => ∃ l, u.out = l ++ [.answer tag bs]
    let open_ := s.closing n = false ∧ s.ideBlocks n 0 ide = false
    (∀ off size v bytes, ¬ open_ → 0 < size → size ≤ 64 → off < 0x400000 →
      let vectors := n < 8 ∧ inMsix off = true
      let none0 := s.regStatus (ldSrc n) (0xC100000000 + off) size false = stBadAddr
      let none2 := n = 8 ∨ s.rangeStatus (.ld n) none (0xC000000000 + off) size = stBadAddr
      let none4 := (vectors ∧ ¬ ((size = 4 ∨ size = 8) ∧ off % size = 0)) ∨
        (¬ vectors ∧ (n = 8 ∨ 16 ≤ off / 0x1000 ∨ size ≠ 4 ∨ off % 4 ≠ 0))
      (∃ u, exec (.bar0Access n false off size v ide) s = .next u ∧ ioErr u ∧ (none0 → tells u haUR []) ∧ (¬ none0 → tells u haCA [])) ∧
      (∃ u, exec (.bar2Access n false off size bytes ide) s = .next u ∧ ioErr u ∧ (none2 → tells u haUR []) ∧
        (¬ none2 → tells u haCA [])) ∧
      (∃ u, exec (.doorbell n false off size v ide) s = .next u ∧ ioErr u ∧ (none4 → tells u haUR []) ∧ (¬ none4 → tells u haCA []))) ∧
    (∀ off size v, open_ → size ≤ 64 →
      let a := 0xC100000000 + off
      let st := fun w => s.regStatus (ldSrc n) a size w
      (off < 0x3000000 → st false = 0 → ∃ u x, exec (.bar0Access n false off size v ide) s = .next u ∧ x.length = size ∧
        exec (.regReadClear (ldSrc n) a size) s = .next { u with out := s.out ++ [.compl 0 x] } ∧
        u.out = s.out ++ [.answer haData x]) ∧
      (off < 0x3000000 → st true = 0 → ∃ u, exec (.bar0Access n true off size v ide) s = .next u ∧
        exec (.regWrite (ldSrc n) a size v) s = .next { u with out := u.out ++ [.compl 0 []] }) ∧
      (off < 0x3000000 → st false ≠ 0 → ∃ u, exec (.bar0Access n false off size v ide) s = .next u ∧ ioErr u ∧
        tells u (if st false = stBadAddr then haUR else haCA) [] ∧ memButEv s u part ∧ regsButEv s u []) ∧
      (off < 0x3000000 → st true ≠ 0 → ∃ u, exec (.bar0Access n true off size v ide) s = .next u ∧ ioErr u ∧
        memButEv s u part ∧ regsButEv s u []) ∧
      (0x3000000 ≤ off → off < 0x3010000 → off % 4 = 0 → exec (.bar0Access n false off 4 v ide) s = .next { s with
        out := s.out ++ [.answer haData (leBytes 4 (s.compRead n (off - 0x3000000)))] }) ∧
      (∀ i, n < 8 → i < 2 → (tgetD (s.fn n).hdm i {}).committed = false → bitAt v 9 = true →
        let h : Hdm := { tgetD (s.fn n).hdm i {} with gran := 256 * 2 ^ (v % 16), ways := waysOf (v / 16 % 16), lock := bitAt v 8 }
        let h0 := tgetD (s.fn n).hdm 0 {}
        let before := if i = 1 ∧ h0.committed = true then h0.skip + h0.size / h0.ways else 0
        let good := h.legal = true ∧ before + (h.skip + h.size / h.ways) ≤ (s.partStacks n).length * 2 ^ 36
        ∃ u, exec (.bar0Access n true (hdmOff i) 4 v ide) s = .next u ∧
          (good → tget (u.fn n).hdm i = some { h with committed := true, err := false }) ∧
          (¬ good → tget (u.fn n).hdm i = some { h with committed := false, err := true }) ∧
          u = { s with regs := u.regs, fns := u.fns }) ∧
      (0x3010000 ≤ off → ∃ u, exec (.bar0Access n false off size v ide) s = .next u ∧ ioErr u ∧ tells u haUR [])) ∧
    (∀ off size bytes t, open_ → n < 8 → 0 < size → size ≤ 4096 → bytes.length = size → t < 144 →
      let a := 0xC000000000 + off
      s.tilePresent t = true → s.packPart (packOf t) = some n → s.bridges = 0 → s.awake (packOf t) →
      scratchBase t ≤ a → a + size ≤ scratchBase t + 0x400000 →
      exec (.bar2Access n false off size bytes ide) s =
        .next { s with out := s.out ++ [.answer haData (mread s.mem a size)] } ∧
      ∃ u, exec (.bar2Access n true off size bytes ide) s = .next u ∧
        u.mem = mwrite s.mem a (bytes.map (fun b => b % 256)) ∧
        u = { s with mem := u.mem, queues := u.queues, ctrs := u.ctrs, tiles := u.tiles }) ∧
    (∀ off size bytes, open_ → 0 < size → size ≤ 4096 → 2 ^ 32 < off + size ∨ n = 8 →
      ∃ u, exec (.bar2Access n false off size bytes ide) s = .next u ∧ ioErr u ∧ tells u haUR []) ∧
    (∀ p i v, open_ → n < 8 → p < 16 → i < 1024 → s.packPart p = some n →
      let off := 0x1000 * p + 4 * i
      (s.inRange p i = true → s.bridges = 0 →
        exec (.doorbell n true off 4 v ide) s = exec (.counterAdd p i v) s ∧
        exec (.doorbell n false off 4 v ide) s = .next { s with out := s.out ++ [.answer haData (leBytes 4 (s.ctr p i).val)] }) ∧
      (s.inRange p i = false → ∃ u, exec (.doorbell n true off 4 v ide) s = .next u ∧ ioErr u ∧ u.ctrs = s.ctrs)) ∧
    (∀ vec i v, open_ → n < 8 → vec < 2048 → i < 4 →
      let off := 0x100000 + 16 * vec + 4 * i
      exec (.doorbell n false off 4 v ide) s = .next { s with out := s.out ++ [.answer haData (leBytes 4 (s.msixWord n vec i))] } ∧
      (i < 3 → ∃ u, exec (.doorbell n true off 4 v ide) s = .next u ∧ u.msixWord n vec i = v % 2 ^ 32 ∧
        u = { s with msixTab := u.msixTab }) ∧
      (i = 3 → v % 2 = 1 → ∃ u, exec (.doorbell n true off 4 v ide) s = .next u ∧ u.msixWord n vec 3 = 1 ∧
        u = { s with msixOpen := u.msixOpen })) ∧
    (∀ hpa bytes, n < 8 → bytes ≠ [] → hpa % 64 + bytes.length ≤ 64 →
      let len := bytes.length
      (∀ d, s.ideBlocks n 2 false = false → s.hdmDpa n hpa = some d →
        let a := (s.partStacks n).getD (d / 2 ^ 36) 0 * 2 ^ 36 + d % 2 ^ 36
        a / 2 ^ 36 < 12 → (a + len - 1) / 2 ^ 36 = a / 2 ^ 36 → s.stackPart (a / 2 ^ 36) = some n → s.active n = true →
        s.bridges = 0 → (∀ x, a / 32 ≤ x → x ≤ (a + len - 1) / 32 → tget s.herr x = none) →
        exec (.cxlMemRead n hpa len) s = .next { s with out := s.out ++ [.answer haData (mread s.mem a len)] } ∧
        ∃ u, exec (.cxlMemWrite n hpa bytes) s = .next u ∧ u.mem = mwrite s.mem a (bytes.map (fun b => b % 256)) ∧
          u = { s with mem := u.mem, herr := u.herr, queues := u.queues, ctrs := u.ctrs, out := s.out ++ [.answer haDone []] }) ∧
      (s.active n = false ∨ s.ideBlocks n 2 false = true ∨ s.hdmDpa n hpa = none →
        (∃ u, exec (.cxlMemRead n hpa len) s = .next u ∧ tells u haPoison (List.replicate len 0) ∧
          u.rd cxlpBase CXLP_MEMERR.COUNT = (s.rd cxlpBase CXLP_MEMERR.COUNT + 1) % 2 ^ 48) ∧
        (∃ u, exec (.cxlMemWrite n hpa bytes) s = .next u ∧ tells u haDone [] ∧ memButEv s u (some n) ∧
          u.rd cxlpBase CXLP_MEMERR.COUNT = (s.rd cxlpBase CXLP_MEMERR.COUNT + 1) % 2 ^ 48)))

/-- Through an offered LD whose IDE rule is met, a read of the Howl window at offset 0x40_0000 + x answers the bytes
from byte x of the partition's 4 MiB Howl region on, which stands at the top of the slice of its lowest stack; a write
to the window changes no byte of memory outside the places of event records and no register outside the event blocks,
and it is logged with DENIED where the error log holds no earlier error. (R469) -/
def Obligations.HowlWindow : Prop :=
  ∀ (s : State) (n x size : Nat) (ide : Bool), s.live = true → s.hostOpen = true → n < 8 → s.offered n = true →
    s.ideBlocks n 0 ide = false → 0 < size → size ≤ 4096 → x + size ≤ 0x400000 →
    let h := (s.partStacks n).headD 0
    let a := (h + 1) * 2 ^ 36 - 0x400000 + x
    (s.partStacks n ≠ [] → s.stackPart h = some n → s.active n = true → s.bridges = 0 →
      (∀ y, a / 32 ≤ y → y ≤ (a + size - 1) / 32 → tget s.herr y = none) →
      exec (.howlWindowWrite n false x size ide) s =
        .next { s with out := s.out ++ [.answer haData (mread s.mem a size)] }) ∧
    (∃ u, exec (.howlWindowWrite n true x size ide) s = .next u ∧ memButEv s u (some n) ∧ regsButEv s u [] ∧
      (s.rd cxlpBase CXLP_ERRLOG.VALID = 0 → u.rd cxlpBase CXLP_ERRLOG.STATUS = stDenied ∧
        u.rd cxlpBase CXLP_ERRLOG.LD = n ∧ u.rd cxlpBase CXLP_ERRLOG.VALID = 1) ∧
      u = { s with regs := u.regs, mem := u.mem, herr := u.herr, msixPend := u.msixPend, fns := u.fns, queues := u.queues,
                   ctrs := u.ctrs, out := u.out })

/-- With the codes, layouts, error codes and order of exchange of SPDM, DOE and IDE_KM that the model presumes
(assumption 80): a data object or an IDE_KM exchange for a function that is not offered is discarded, counted and
logged, and one during a teardown is counted as DENIED; discovery names the types that a mailbox serves, and an object
of any other type is discarded. Of plain requests, GET_VERSION agrees the version, and before it, and in the debug
state, another request is answered with an error; then CAPABILITIES and ALGORITHMS offer what R447 gives and no
pre-shared keys or mutual authentication, GET_CERTIFICATE answers the bytes of the slot-0 chain, a challenge answers
its digest, a key exchange opens a handshake, a slot other than 0 is an error, and so are FINISH and END_SESSION. In a
secured message, FINISH of an exchange opens the session and END_SESSION closes it, and without either every request
is an error. An exchange of IDE_KM in a session sets up the stream that it names with its keys; an integrity failure
ends one and destroys them; IDE_REQ is set by a write that passes its checks. Where a command meets none of this,
nothing changes (the model's choice, assumption 6). (R436, R446, R447, R449, R452, R463, R482, R483, R484, R485) -/
def Obligations.SpdmAndIde : Prop :=
  ∀ (s : State) (n : Nat), s.live = true → s.hostOpen = true → n < 9 →
    let f := s.fn n
    let stream := if n < 8 then fkey (cxlpLBase n) CXLP_LDSTAT.IDE_IO else fkey cxlpBase CXLP_LSTAT.CMIDE
    let code := fun (bs : List Nat) => bs.getD 1 0 % 256
    let ask := fun ty bs => exec (.spdmRequest { fn := n, ty := ty } bs) s
    let shows := fun tag bs => { s with out := s.out ++ [.answer tag bs] }
    let error := fun tag e bs => Host.Outcome.next (shows tag [0x12, 0x7F, e, code bs])
    let tells := fun (u : State) tag bs => { s with fns := u.fns, out := s.out ++ [.answer tag bs] } = u
    let turned := fun (i : Host.Outcome State Fault Refusal) => ∃ u, i = .next u ∧
      u.rd cxlpBase CXLP_IOERR.COUNT = (s.rd cxlpBase CXLP_IOERR.COUNT + 1) % 2 ^ 48 ∧ u.kn = s.kn ∧
      (u.fn n).session = f.session ∧ (u.fn n).exchange = f.exchange ∧ (u.fn n).ideKey = f.ideKey ∧
      (s.rd cxlpBase CXLP_ERRLOG.VALID = 0 → u.rd cxlpBase CXLP_ERRLOG.STATUS = stDenied ∧ u.rd cxlpBase CXLP_ERRLOG.VALID = 1) ∧
      memButEv s u (if n < 8 then some n else none) ∧ regsButEv s u []
    (∀ ty bs setup, s.offered n = false ∨ s.closing n = true → turned (ask ty bs) ∧ turned (exec (.ideKm n setup) s)) ∧
    (∀ ty bs, s.offered n = true → s.closing n = false →
      (ty = 0 → ask ty bs = .next (shows haDoe
        (let i := bs.getD 0 0 % 256
         if i < 3 then [1, 0, i, (i + 1) % 3] else [0xFF, 0xFF, 0, 0]))) ∧
      (2 < ty → ask ty bs = .next s) ∧
      (ty = 1 → code bs = 0x84 → ∃ u, ask ty bs = .next u ∧ tells u haSpdm [0x12, 0x04, 0, 0, 0, 1, 0, 0x12] ∧
        u.fn n = { f with version := true, exchange := false, session := false }) ∧
      (ty = 1 → code bs ≠ 0x84 → s.rd knlBase KNL_STATE.DEBUG = 1 → ask ty bs = error haSpdm 0x07 bs) ∧
      (ty = 1 → code bs ≠ 0x84 → s.rd knlBase KNL_STATE.DEBUG = 0 → f.version = false → ask ty bs = error haSpdm 0x04 bs) ∧
      (ty = 1 → s.rd knlBase KNL_STATE.DEBUG = 0 → f.version = true →
        (code bs = 0xE1 → ∃ u x, ask ty bs = .next u ∧ u = { s with fresh := u.fresh, out := s.out ++ [.answer haSpdm x] } ∧
          x.take 4 = [0x12, 0x61, 0, 0] ∧ (∀ i ∈ [1, 2, 4, 6, 7, 9], bitAt (leNat (slice x 8 4)) i = true) ∧
          ∀ i ∈ [3, 8, 10, 11], bitAt (leNat (slice x 8 4)) i = false) ∧
        (code bs = 0xE3 → ∃ x, ask ty bs = .next (shows haSpdm x) ∧ x.length = 52 ∧ slice x 8 4 = [2, 0, 0, 0] ∧
          slice x 12 4 = [4, 0, 0, 0] ∧ slice x 16 4 = [1, 0, 0, 0] ∧ slice x 36 8 = [2, 0x20, 0x10, 0, 3, 0x20, 2, 0] ∧
          slice x 44 4 = [4, 0x20, 0, 0]) ∧
        (code bs = 0x82 → bs.getD 2 0 % 256 % 16 = 0 →
          let off := imgField (bs.map (fun b => b % 256)) 4 2
          let x := s.certBytes off (imgField (bs.map (fun b => b % 256)) 6 2)
          ask ty bs = .next (shows haSpdm
            ([0x12, 0x02, 0, 0] ++ leBytes 2 x.length ++ leBytes 2 (s.chainLen - off - x.length) ++ x))) ∧
        (code bs = 0x82 → bs.getD 2 0 % 256 % 16 ≠ 0 → ask ty bs = error haSpdm 0x01 bs) ∧
        (code bs = 0xE0 → bs.getD 3 0 % 256 = 0 → bs.getD 2 0 % 2 = 0 → ask ty bs = .next (shows haSpdm
          [0x12, 0x60, (((List.range 19).drop 1).filter (reports n)).length, 0, 0, 0, 0, 0])) ∧
        (code bs = 0x83 → bs.getD 2 0 % 256 = 0 → ∃ u x, ask ty bs = .next u ∧ u.out = s.out ++ [.answer haSpdm x] ∧
          x.take 36 = [0x12, 0x03, 0, 1] ++ s.chainDigest ∧ u = { s with kn := u.kn, fresh := u.fresh, out := u.out }) ∧
        (code bs = 0xE4 → bs.getD 3 0 % 256 = 0 → ∃ u x, ask ty bs = .next u ∧ u.out = s.out ++ [.answer haSpdm x] ∧
          x.take 2 = [0x12, 0x64] ∧ u.fn n = { f with exchange := true } ∧
          u = { s with kn := u.kn, fresh := u.fresh, fns := u.fns, out := u.out }) ∧
        (code bs = 0x83 → bs.getD 2 0 % 256 ≠ 0 → ask ty bs = error haSpdm 0x01 bs) ∧
        (code bs = 0xE4 → bs.getD 3 0 % 256 ≠ 0 → ask ty bs = error haSpdm 0x01 bs) ∧
        (code bs = 0xE5 ∨ code bs = 0xEC → ask ty bs = error haSpdm 0x04 bs)) ∧
      (ty = 2 → s.rd knlBase KNL_STATE.DEBUG = 1 → ask ty bs = error haSecured 0x07 bs) ∧
      (ty = 2 → s.rd knlBase KNL_STATE.DEBUG = 0 → f.exchange = false → f.session = false → ask ty bs = error haSecured 0x02 bs) ∧
      (ty = 2 → s.rd knlBase KNL_STATE.DEBUG = 0 → f.exchange = true → code bs = 0xE5 →
        ∃ u, ask ty bs = .next u ∧ tells u haSecured [0x12, 0x65, 0, 0] ∧
          u.fn n = { f with exchange := false, session := true }) ∧
      (ty = 2 → s.rd knlBase KNL_STATE.DEBUG = 0 → f.session = true → f.exchange = false → code bs = 0xE5 →
        ask ty bs = error haSecured 0x04 bs) ∧
      (ty = 2 → s.rd knlBase KNL_STATE.DEBUG = 0 → f.session = true → code bs = 0xEC →
        ∃ u, ask ty bs = .next u ∧ tells u haSecured [0x12, 0x6C, 0, 0] ∧ u.fn n = { f with session := false })) ∧
    (∀ key, s.offered n = true → s.closing n = false → f.session = true →
      (n < 8 → ∃ u, exec (.ideKm n { key := key }) s = .next u ∧ u.rd (cxlpLBase n) CXLP_LDSTAT.IDE_IO = 1 ∧
        u.fn n = { f with ideKey := some key } ∧ regsBut s u [stream] ∧ u = { s with regs := u.regs, fns := u.fns }) ∧
      (n = s.linkKeyFn → ∃ u, exec (.ideKm n { link := true, key := key }) s = .next u ∧ u.linkIde = true ∧
        regsBut s u [fkey cxlpBase CXLP_LSTAT.CMIDE] ∧
        u = { s with regs := u.regs, kn := { s.kn with linkIde := some key } }) ∧
      (n ≠ s.linkKeyFn → exec (.ideKm n { link := true, key := key }) s = .next s)) ∧
    (∀ setup, s.offered n = true → s.closing n = false → f.session = false → exec (.ideKm n setup) s = .next s) ∧
    (let base := if n < 8 then cxlpLBase n else cxlpBase
     let fld := if n < 8 then CXLP_LDSTAT.IDE_IO else CXLP_LSTAT.CMIDE
     (s.rd base fld = 0 → exec (.ideIntegrityFailure n) s = .next s) ∧
     (s.rd base fld = 1 → ∃ u, exec (.ideIntegrityFailure n) s = .next u ∧ u.rd base fld = 0 ∧ regsButEv s u [] ∧
      (if n < 8 then (u.fn n).ideKey = none else u.kn.linkIde = none) ∧
      memButEv s u (if n < 8 then some n else none) ∧
      (s.rd cxlpBase CXLP_ERRLOG.VALID = 0 → u.rd cxlpBase CXLP_ERRLOG.CHAN = 3 ∧ u.rd cxlpBase CXLP_ERRLOG.VALID = 1))) ∧
    (∀ c, n < 8 → s.accepts c (cxlpLBase n + 8) 4 →
      ∃ u, exec (.ideReq c n) s = .next u ∧ u.rd (cxlpLBase n) CXLP_LDCTRL.IDE_REQ = 1 ∧
        regsBut s u [fkey (cxlpLBase n) CXLP_LDCTRL.IDE_REQ] ∧ u = { s with regs := u.regs, out := s.out ++ [.compl 0 []] })

/-- The FM API (its layouts are presumed, assumption 79) answers the identity, the number of LDs and their memory
sizes, and Unsupported to a change. A host-port Retriever that is free takes the next piece (one piece at a time, the
model's choice, assumption 130) of the next LD in turn, within 4 KiB of host addresses, as reads of whole lines, line
writes and partial writes under CXL.cache and as reads and writes within the maximum sizes under CXL.io, and fails one
that is denied, that finds the link down (the model's reading, assumption 69) or whose path meets a bridge out of
service, with the status that R534 ranks first among these and that of the local side (the model's reading, assumption
138); the host's answer completes it, stores what was read where the local memory takes it, and counts it, unless its
way back meets a bridge out of service, one of the wrong kind or length changes nothing, and an answer with an error,
or none within CTO_US, fails the access and counts HOST_ERR. Unmasking a vector sends its pending message where Bus
Master Enable and MSI-X are set (the model's reading, assumption 37). TELCMD starts one request, which is not sent to
a reserved destination, and ends with ERR after 100 µs. Where a command meets none of this, nothing changes (the
model's choice, assumption 6). (R463, R464, R465, R476, R477, R478, R479, R481, R486) -/
def Obligations.HostServices : Prop :=
  ∀ s : State, s.live = true →
    let sizes := (List.range 8).map (fun n => if s.offered n then (s.partStacks n).length * 2 ^ 36 else 0)
    let list := (sizes.map (leBytes 8)).flatten
    let hostErr := fun (u : State) => u.rd cxlpBase CXLP_HOSTERR.COUNT = (s.rd cxlpBase CXLP_HOSTERR.COUNT + 1) % 2 ^ 48
    (s.hostOpen = true →
      exec .identify s = .next { s with
        out := s.out ++ [.answer haFm (leBytes 8 s.ident.uid ++ [s.ident.grade, s.ident.stepping, 8])] } ∧
      exec .getLdInfo s = .next { s with out := s.out ++ [.answer haFm (8 :: list)] } ∧
      exec .getLdAllocations s = .next { s with out := s.out ++ [.answer haFm list] } ∧
      exec .setLdAllocations s = .next { s with out := s.out ++ [.answer haUnsupported []] }) ∧
    (∀ j id a r d, j < 10 → s.freeHostRet = some r → (∀ i, i < j → s.ldNext ((s.lastLd + 1 + i) % 10) = none) →
      let n := (s.lastLd + 1 + j) % 10
      let ha := (a.addr + a.taken) % 2 ^ 64
      let len := min (a.len - a.taken) (4096 - ha % 4096)
      let piece := { acc := id, off := a.taken, len := len, t0 := s.clock, ret := r }
      let b := { a with taken := a.taken + len, time := s.ns, ret := some r }
      let meets := s.crossFails 0 (packStop a.pack) hostStop
      s.ldNext n = some (id, a) →
      (tget s.haccs id = some a → a.status = 0 →
        let near := match a.kind, a.owner with
          | .read, .cmd _ _ _ => s.rangeStatus (s.ownerSrc a.owner a.pack) none a.loc a.len
          | _, _ => 0
        let localFirst := a.taken = 0 ∧ firstStatus near stDenied ≠ stDenied
        (s.hostDenied n a.kind = true → localFirst →
          ∃ u, exec .hostRetrieverPiece s = .next u ∧ u.lastLd = n ∧
            u.rd cxlpBase CXLP_HOSTERR.COUNT = s.rd cxlpBase CXLP_HOSTERR.COUNT) ∧
        (s.hostDenied n a.kind = false → meets = true → ∃ u, exec .hostRetrieverPiece s = .next u ∧ u.lastLd = n ∧
          u.rd cxlpBase CXLP_HOSTERR.COUNT = s.rd cxlpBase CXLP_HOSTERR.COUNT) ∧
        ((s.hostDenied n a.kind = true ∧ ¬ localFirst) ∨ (s.hostDenied n a.kind = false ∧ meets = false ∧ s.linkOn = false) →
          ∃ u, exec .hostRetrieverPiece s = .next u ∧ hostErr u ∧ u.lastLd = n)) ∧
      (meets = false → s.hostDenied n a.kind = false → s.linkOn = true →
        (a.kind = .read → ∃ u, exec .hostRetrieverPiece s = .next u ∧ u.lastLd = n ∧ tget u.haccs id = some b ∧
          u.hpieces = tset s.hpieces s.hpieceNext piece ∧ u.out = s.out ++ s.readTxs n ha len) ∧
        (a.kind = .write → a.parts = [(0, d)] → d.length = a.len →
          let bs := (d.drop a.taken).take len
          let txs := s.writeTxs n ((a.addr + a.taken) % 2 ^ 64) bs
          (s.cacheOn = true → ∃ u, exec .hostRetrieverPiece s = .next u ∧ u.lastLd = n ∧ tget u.haccs id = some b ∧
            u.hpieces = tset s.hpieces s.hpieceNext piece ∧ u.out = s.out ++ txs) ∧
          (s.cacheOn = false → n < 8 → a.ld = n → a.taken + len < a.len →
            ∃ u, exec .hostRetrieverPiece s = .next u ∧ u.lastLd = n ∧ tget u.haccs id = some { b with done := a.done + len } ∧
              u.rd (cxlpLBase n) CXLP_LDWR.BYTES = (s.rd (cxlpLBase n) CXLP_LDWR.BYTES + len) % 2 ^ 64 ∧
              u.out = s.out ++ txs)))) ∧
    (∀ n ha len bs, ∀ o,
      (o ∈ s.readTxs n ha len → (s.cacheOn = true → ∃ x, o = .hostRead .rdCurr n (64 * x) 64 ∧ ha < 64 * x + 64 ∧ 64 * x < ha + len) ∧
        (s.cacheOn = false → ∃ x m, o = .hostRead .memRd n x m ∧ 0 < m ∧ m ≤ 4096 ∧ ha ≤ x ∧ x + m ≤ ha + len)) ∧
      (o ∈ s.writeTxs n ha bs → ∃ tx x m, o = .hostWrite tx n x ((bs.drop (x - ha)).take m) ∧ ha ≤ x ∧ x + m ≤ ha + bs.length ∧
        (s.cacheOn = true → m = 64 ∧ x % 64 = 0 ∧ tx = .itoMWr ∨ x % 64 + m ≤ 64 ∧ m < 64 ∧ tx = .woWrInv) ∧
        (s.cacheOn = false → tx = .memWr ∧ m ≤ 512))) ∧
    (s.freeHostRet = none ∨ (∀ n, n < 10 → s.ldNext n = none) → exec .hostRetrieverPiece s = .next s) ∧
    (∀ piece ans, tget s.hpieces piece = none →
      exec (.hostCompletion piece ans) s = .next s ∧ exec (.completionTimeout piece) s = .next s) ∧
    (∀ piece p a, tget s.hpieces piece = some p → tget s.haccs p.acc = some a → a.status = 0 →
      let meets := s.wayFails hostStop (packStop a.pack)
      (∀ ans ∈ [HostAns.unsupported, .abort, .poison],
        ∃ u, exec (.hostCompletion piece ans) s = .next u ∧ hostErr u ∧
          (a.ld < 8 → s.rd cxlpBase CXLP_ERRLOG.VALID = 0 → u.rd cxlpBase CXLP_ERRLOG.STATUS = stHostErr ∧
            u.rd cxlpBase CXLP_ERRLOG.LD = a.ld ∧ u.rd cxlpBase CXLP_ERRADDR.ADDR = (a.addr + p.off) % 2 ^ 64)) ∧
      (s.clock < p.t0 + 7000 * max 1 (s.rd cxlpBase CXLP_CFG.CTO_US) → exec (.completionTimeout piece) s = .next s) ∧
      (p.t0 + 7000 * max 1 (s.rd cxlpBase CXLP_CFG.CTO_US) ≤ s.clock →
        ∃ u, exec (.completionTimeout piece) s = .next u ∧ hostErr u ∧ tget u.hpieces piece = none) ∧
      (∀ d, a.kind = .write → a.parts = [(0, d)] → d.length = a.len → p.off + p.len ≤ a.len → a.taken < a.len → a.ld < 8 → meets = false →
        ∃ u, exec (.hostCompletion piece .observed) s = .next u ∧ tget u.hpieces piece = none ∧
          tget u.haccs p.acc = some { a with done := a.done + p.len, time := s.ns } ∧
          u.rd (cxlpLBase a.ld) CXLP_LDWR.BYTES = (s.rd (cxlpLBase a.ld) CXLP_LDWR.BYTES + p.len) % 2 ^ 64) ∧
      (a.kind ≠ .write → exec (.hostCompletion piece .observed) s = .next s) ∧
      (∀ bs, a.kind ≠ .read ∨ bs.length ≠ p.len → exec (.hostCompletion piece (.data bs)) s = .next s) ∧
      (∀ bs, meets = true → (a.kind = .read ∧ bs.length = p.len) → a.ld < 8 →
        ∃ u, exec (.hostCompletion piece (.data bs)) s = .next u ∧ tget u.hpieces piece = none ∧
          u.rd cxlpBase CXLP_HOSTERR.COUNT = s.rd cxlpBase CXLP_HOSTERR.COUNT ∧
          (∀ x, tget u.haccs p.acc = some x → x.status = stDevFail ∧ x.taken = x.len)) ∧
      (∀ bs, a.kind = .read → a.taken < a.len → a.ld < 8 → bs.length = p.len → meets = false →
        let c := s.ownerSrc a.owner a.pack
        let x := memWrite { s with hpieces := tdel s.hpieces piece } c (a.loc + p.off) bs
        let cmd := ∃ q num i, a.owner = .cmd q num i
        ∃ u, exec (.hostCompletion piece (.data bs)) s = .next u ∧ (cmd → u.mem = x.1.mem) ∧
          (¬ cmd → u.mem = s.mem) ∧ tget u.hpieces piece = none ∧
          (cmd → tget u.haccs p.acc = some { a.note x.2 (s.failAddr c none (a.loc + p.off) p.len) with
            parts := tset a.parts p.off bs, done := a.done + s.storedBytes c none (a.loc + p.off) [(0, bs)], time := s.ns }) ∧
          (¬ cmd → tget u.haccs p.acc = some { a with parts := tset a.parts p.off bs, done := a.done + p.len, time := s.ns }) ∧
          u.rd (cxlpLBase a.ld) CXLP_LDRD.BYTES = (s.rd (cxlpLBase a.ld) CXLP_LDRD.BYTES + p.len) % 2 ^ 64)) ∧
    (∀ n vec ide, n < 8 → vec < 2048 → s.hostOpen = true → s.offered n = true → s.closing n = false → s.ideBlocks n 0 ide = false →
      (∀ v ∈ tgetD s.msixPend n [], v ≠ vec → s.vecOpen n v = false) →
      (vec ∉ tgetD s.msixPend n [] →
        ∃ u, exec (.msixUnmask { ld := n, ide := ide } vec) s = .next u ∧ u.msixWord n vec 3 = 0 ∧
          u = { s with msixOpen := u.msixOpen }) ∧
      (vec ∈ tgetD s.msixPend n [] → (tgetD s.msixPend n []).Nodup →
        let on := s.rd (cxlpLBase n) CXLP_LDSTAT.BME = 1 ∧ (s.fn n).msix % 4 = 1
        ∃ u, exec (.msixUnmask { ld := n, ide := ide } vec) s = .next u ∧ u.msixWord n vec 3 = 0 ∧
          (on → vec ∉ tgetD u.msixPend n [] ∧
            u.rd (cxlpLBase n) CXLP_LDMSI.COUNT = (s.rd (cxlpLBase n) CXLP_LDMSI.COUNT + 1) % 2 ^ 64 ∧
            u.out = s.out ++ [.msix n vec (s.msixWord n vec 0 + 2 ^ 32 * s.msixWord n vec 1) (s.msixWord n vec 2)]) ∧
          (¬ on → vec ∈ tgetD u.msixPend n [] ∧ u.out = s.out))) ∧
    (∀ c ep port vc bank, s.accepts c (cxlpBase + 0x40) 8 →
      ∃ u, exec (.telcmdGo c ep port vc bank) s = .next u ∧ u.rd cxlpBase CXLP_TELCMD.EP = ep % 2 ^ 24 ∧
        u.rd cxlpBase CXLP_TELCMD.PORT = port % 16 ∧ u.rd cxlpBase CXLP_TELCMD.VC = vc % 32 ∧
        u.rd cxlpBase CXLP_TELCMD.BANK = bank % 2 ∧ u.telAt = (if s.telAt.isSome then s.telAt else some s.clock) ∧
        (s.telAt.isSome = true ∨ badDest (ep % 2 ^ 24) = true → u.rte = s.rte) ∧ u = { s with regs := u.regs, rte := u.rte, telAt := u.telAt, out := u.out }) ∧
    (s.telAt = none → exec .telcmdTimeout s = .next s) ∧
    (∀ t, s.telAt = some t →
      (s.clock < t + 700000 → exec .telcmdTimeout s = .next s) ∧
      (t + 700000 ≤ s.clock →
        exec .telcmdTimeout s = .next { s.wr cxlpBase CXLP_TELCMD.ERR 1 with telAt := none }))

/-- The state after reset serves in D0 with the values that the spec gives: no base image is loaded, no partition
exists, every port's coordinates are not valid, the through-paths are closed, the host link is down, and no failure
code shows; memory is sound and lists nothing and no command waits. The axis and direction of a port, the protocol
levels and the power limits are those of a device without a base image; the grade, the image levels and the contents
of the fuses are the model's choice (assumption 1). (R495, R497, R503, R531) -/
def Obligations.ResetState : Prop :=
  let s := State.reset
  s.sound ∧ s.mem = [] ∧ s.pending = [] ∧ s.parts = [] ∧ s.live = true ∧ s.linkOn = false ∧
    s.rd shpBase SHP_STATE.FAILCODE = 0 ∧ s.rd shpBase SHP_TPSTAT.CLOSED = 15 ∧
    s.rd shapeBase SHAPE_STAT.LOADED = 0 ∧ s.rd shapeBase SHAPE_STAT.CLOSED = 0 ∧ s.rd shapeBase SHAPE_STAT.PARTS = 0 ∧
    (∀ n, n < 8 → s.rd (lnkBase n) LNK_COORD.VALID = 0 ∧ s.lkState n = lkDISABLED ∧
      s.rd (lnkBase n) LNK_CFG.AXIS = n / 2 ∧ s.rd (lnkBase n) LNK_CFG.DIR = n % 2 ∧
      s.rd (lnkBase n) LNK_LEVEL.LINK = (s.runImg 2).llvl ∧ s.rd (lnkBase n) LNK_LEVEL.COLL = (s.runImg 2).clvl) ∧
    (∀ k, k < 8 → s.active k = false) ∧ (∀ d, d < 2 → s.rd (pmuBase d) PMU_PLIMIT.WATTS = 950) ∧
    s.rd shpBase SHP_LEASH.LIMIT = 1000

/-- From every state whose memory stands in its one canonical form, a step that answers a next state leaves memory in
that form, whatever command stands at the front of the queue. (R10, R31) -/
def Obligations.StepKeepsSound : Prop :=
  ∀ s t : State, s.sound → step s = .next t → t.sound

/-- No step changes the device's grade, stepping, unique ID or straps, unwrites or rewrites an operator-key slot that
is written, clears a revoke fuse, or lowers the fuse count of an image type, whatever command stands at the front of
the queue. (R440, R446, R493, R502) -/
def Obligations.StepKeepsFuses : Prop :=
  ∀ s t : State, step s = .next t → fusesKept s t
end

