-- ==== Sys2Proof/Laws/State.lean ====
section
/-! SUPPORT. What each update of the state leaves and gives: one equation per field and update, and per reader and update
that does not touch what it reads. -/

namespace Sys2Proof.Machine

/-! After a register field is written. -/

@[simp] theorem State.wr_ident (s : State) (b : Nat) (f : Field) (v : Nat) : (s.wr b f v).ident = s.ident := rfl
@[simp] theorem State.wr_kn (s : State) (b : Nat) (f : Field) (v : Nat) : (s.wr b f v).kn = s.kn := rfl
@[simp] theorem State.wr_shp (s : State) (b : Nat) (f : Field) (v : Nat) : (s.wr b f v).shp = s.shp := rfl
@[simp] theorem State.wr_pmus (s : State) (b : Nat) (f : Field) (v : Nat) : (s.wr b f v).pmus = s.pmus := rfl
@[simp] theorem State.wr_fns (s : State) (b : Nat) (f : Field) (v : Nat) : (s.wr b f v).fns = s.fns := rfl
@[simp] theorem State.wr_tsync (s : State) (b : Nat) (f : Field) (v : Nat) : (s.wr b f v).tsync = s.tsync := rfl
@[simp] theorem State.wr_parts (s : State) (b : Nat) (f : Field) (v : Nat) : (s.wr b f v).parts = s.parts := rfl
@[simp] theorem State.wr_regs (s : State) (b : Nat) (f : Field) (v : Nat) : (s.wr b f v).regs = tput s.regs (fkey b f) f.rst (v % 2 ^ f.wid) := rfl
@[simp] theorem State.wr_mem (s : State) (b : Nat) (f : Field) (v : Nat) : (s.wr b f v).mem = s.mem := rfl
@[simp] theorem State.wr_herr (s : State) (b : Nat) (f : Field) (v : Nat) : (s.wr b f v).herr = s.herr := rfl
@[simp] theorem State.wr_tiles (s : State) (b : Nat) (f : Field) (v : Nat) : (s.wr b f v).tiles = s.tiles := rfl
@[simp] theorem State.wr_queues (s : State) (b : Nat) (f : Field) (v : Nat) : (s.wr b f v).queues = s.queues := rfl
@[simp] theorem State.wr_ctrs (s : State) (b : Nat) (f : Field) (v : Nat) : (s.wr b f v).ctrs = s.ctrs := rfl
@[simp] theorem State.wr_rets (s : State) (b : Nat) (f : Field) (v : Nat) : (s.wr b f v).rets = s.rets := rfl
@[simp] theorem State.wr_links (s : State) (b : Nat) (f : Field) (v : Nat) : (s.wr b f v).links = s.links := rfl
@[simp] theorem State.wr_rte (s : State) (b : Nat) (f : Field) (v : Nat) : (s.wr b f v).rte = s.rte := rfl
@[simp] theorem State.wr_xfers (s : State) (b : Nat) (f : Field) (v : Nat) : (s.wr b f v).xfers = s.xfers := rfl
@[simp] theorem State.wr_xferNext (s : State) (b : Nat) (f : Field) (v : Nat) : (s.wr b f v).xferNext = s.xferNext := rfl
@[simp] theorem State.wr_haccs (s : State) (b : Nat) (f : Field) (v : Nat) : (s.wr b f v).haccs = s.haccs := rfl
@[simp] theorem State.wr_haccNext (s : State) (b : Nat) (f : Field) (v : Nat) : (s.wr b f v).haccNext = s.haccNext := rfl
@[simp] theorem State.wr_hpieces (s : State) (b : Nat) (f : Field) (v : Nat) : (s.wr b f v).hpieces = s.hpieces := rfl
@[simp] theorem State.wr_hpieceNext (s : State) (b : Nat) (f : Field) (v : Nat) : (s.wr b f v).hpieceNext = s.hpieceNext := rfl
@[simp] theorem State.wr_lastLd (s : State) (b : Nat) (f : Field) (v : Nat) : (s.wr b f v).lastLd = s.lastLd := rfl
@[simp] theorem State.wr_telAt (s : State) (b : Nat) (f : Field) (v : Nat) : (s.wr b f v).telAt = s.telAt := rfl
@[simp] theorem State.wr_time (s : State) (b : Nat) (f : Field) (v : Nat) : (s.wr b f v).time = s.time := rfl
@[simp] theorem State.wr_clock (s : State) (b : Nat) (f : Field) (v : Nat) : (s.wr b f v).clock = s.clock := rfl
@[simp] theorem State.wr_aclk0 (s : State) (b : Nat) (f : Field) (v : Nat) : (s.wr b f v).aclk0 = s.aclk0 := rfl
@[simp] theorem State.wr_aclk1 (s : State) (b : Nat) (f : Field) (v : Nat) : (s.wr b f v).aclk1 = s.aclk1 := rfl
@[simp] theorem State.wr_bridges (s : State) (b : Nat) (f : Field) (v : Nat) : (s.wr b f v).bridges = s.bridges := rfl
@[simp] theorem State.wr_bridgeSp (s : State) (b : Nat) (f : Field) (v : Nat) : (s.wr b f v).bridgeSp = s.bridgeSp := rfl
@[simp] theorem State.wr_bridgeCh (s : State) (b : Nat) (f : Field) (v : Nat) : (s.wr b f v).bridgeCh = s.bridgeCh := rfl
@[simp] theorem State.wr_msixOpen (s : State) (b : Nat) (f : Field) (v : Nat) : (s.wr b f v).msixOpen = s.msixOpen := rfl
@[simp] theorem State.wr_msixTab (s : State) (b : Nat) (f : Field) (v : Nat) : (s.wr b f v).msixTab = s.msixTab := rfl
@[simp] theorem State.wr_msixPend (s : State) (b : Nat) (f : Field) (v : Nat) : (s.wr b f v).msixPend = s.msixPend := rfl
@[simp] theorem State.wr_scrubNow (s : State) (b : Nat) (f : Field) (v : Nat) : (s.wr b f v).scrubNow = s.scrubNow := rfl
@[simp] theorem State.wr_remapPtr (s : State) (b : Nat) (f : Field) (v : Nat) : (s.wr b f v).remapPtr = s.remapPtr := rfl
@[simp] theorem State.wr_refresh (s : State) (b : Nat) (f : Field) (v : Nat) : (s.wr b f v).refresh = s.refresh := rfl
@[simp] theorem State.wr_fresh (s : State) (b : Nat) (f : Field) (v : Nat) : (s.wr b f v).fresh = s.fresh := rfl
@[simp] theorem State.wr_out (s : State) (b : Nat) (f : Field) (v : Nat) : (s.wr b f v).out = s.out := rfl
@[simp] theorem State.wr_pending (s : State) (b : Nat) (f : Field) (v : Nat) : (s.wr b f v).pending = s.pending := rfl
@[simp] theorem State.queue_wr (s : State) (b : Nat) (f : Field) (v : Nat) (r : QId) : (s.wr b f v).queue r = s.queue r := rfl
@[simp] theorem State.tile_wr (s : State) (b : Nat) (f : Field) (v : Nat) (u : Nat) : (s.wr b f v).tile u = s.tile u := rfl
@[simp] theorem State.ctr_wr (s : State) (b : Nat) (f : Field) (v : Nat) (a c : Nat) : (s.wr b f v).ctr a c = s.ctr a c := rfl
@[simp] theorem State.ret_wr (s : State) (b : Nat) (f : Field) (v : Nat) (a c : Nat) : (s.wr b f v).ret a c = s.ret a c := rfl
@[simp] theorem State.part_wr (s : State) (b : Nat) (f : Field) (v : Nat) (a : Nat) : (s.wr b f v).part a = s.part a := rfl
@[simp] theorem State.link_wr (s : State) (b : Nat) (f : Field) (v : Nat) (a : Nat) : (s.wr b f v).link a = s.link a := rfl
@[simp] theorem State.ns_wr (s : State) (b : Nat) (f : Field) (v : Nat) : (s.wr b f v).ns = s.ns := rfl
@[simp] theorem State.nclk_wr (s : State) (b : Nat) (f : Field) (v : Nat) : (s.wr b f v).nclk = s.nclk := rfl
@[simp] theorem State.tilePresent_wr (s : State) (b : Nat) (f : Field) (v : Nat) (a : Nat) : (s.wr b f v).tilePresent a = s.tilePresent a := rfl
@[simp] theorem State.packTiles_wr (s : State) (b : Nat) (f : Field) (v : Nat) (a : Nat) : (s.wr b f v).packTiles a = s.packTiles a := rfl

/-! After a queue is set. -/

@[simp] theorem State.setQ_ident (s : State) (q : QId) (v : Queue) : (s.setQ q v).ident = s.ident := rfl
@[simp] theorem State.setQ_kn (s : State) (q : QId) (v : Queue) : (s.setQ q v).kn = s.kn := rfl
@[simp] theorem State.setQ_shp (s : State) (q : QId) (v : Queue) : (s.setQ q v).shp = s.shp := rfl
@[simp] theorem State.setQ_pmus (s : State) (q : QId) (v : Queue) : (s.setQ q v).pmus = s.pmus := rfl
@[simp] theorem State.setQ_fns (s : State) (q : QId) (v : Queue) : (s.setQ q v).fns = s.fns := rfl
@[simp] theorem State.setQ_tsync (s : State) (q : QId) (v : Queue) : (s.setQ q v).tsync = s.tsync := rfl
@[simp] theorem State.setQ_parts (s : State) (q : QId) (v : Queue) : (s.setQ q v).parts = s.parts := rfl
@[simp] theorem State.setQ_regs (s : State) (q : QId) (v : Queue) : (s.setQ q v).regs = s.regs := rfl
@[simp] theorem State.setQ_mem (s : State) (q : QId) (v : Queue) : (s.setQ q v).mem = s.mem := rfl
@[simp] theorem State.setQ_herr (s : State) (q : QId) (v : Queue) : (s.setQ q v).herr = s.herr := rfl
@[simp] theorem State.setQ_tiles (s : State) (q : QId) (v : Queue) : (s.setQ q v).tiles = s.tiles := rfl
@[simp] theorem State.setQ_queues (s : State) (q : QId) (v : Queue) : (s.setQ q v).queues = tset s.queues (qKey q) v := rfl
@[simp] theorem State.setQ_ctrs (s : State) (q : QId) (v : Queue) : (s.setQ q v).ctrs = s.ctrs := rfl
@[simp] theorem State.setQ_rets (s : State) (q : QId) (v : Queue) : (s.setQ q v).rets = s.rets := rfl
@[simp] theorem State.setQ_links (s : State) (q : QId) (v : Queue) : (s.setQ q v).links = s.links := rfl
@[simp] theorem State.setQ_rte (s : State) (q : QId) (v : Queue) : (s.setQ q v).rte = s.rte := rfl
@[simp] theorem State.setQ_xfers (s : State) (q : QId) (v : Queue) : (s.setQ q v).xfers = s.xfers := rfl
@[simp] theorem State.setQ_xferNext (s : State) (q : QId) (v : Queue) : (s.setQ q v).xferNext = s.xferNext := rfl
@[simp] theorem State.setQ_haccs (s : State) (q : QId) (v : Queue) : (s.setQ q v).haccs = s.haccs := rfl
@[simp] theorem State.setQ_haccNext (s : State) (q : QId) (v : Queue) : (s.setQ q v).haccNext = s.haccNext := rfl
@[simp] theorem State.setQ_hpieces (s : State) (q : QId) (v : Queue) : (s.setQ q v).hpieces = s.hpieces := rfl
@[simp] theorem State.setQ_hpieceNext (s : State) (q : QId) (v : Queue) : (s.setQ q v).hpieceNext = s.hpieceNext := rfl
@[simp] theorem State.setQ_lastLd (s : State) (q : QId) (v : Queue) : (s.setQ q v).lastLd = s.lastLd := rfl
@[simp] theorem State.setQ_telAt (s : State) (q : QId) (v : Queue) : (s.setQ q v).telAt = s.telAt := rfl
@[simp] theorem State.setQ_time (s : State) (q : QId) (v : Queue) : (s.setQ q v).time = s.time := rfl
@[simp] theorem State.setQ_clock (s : State) (q : QId) (v : Queue) : (s.setQ q v).clock = s.clock := rfl
@[simp] theorem State.setQ_aclk0 (s : State) (q : QId) (v : Queue) : (s.setQ q v).aclk0 = s.aclk0 := rfl
@[simp] theorem State.setQ_aclk1 (s : State) (q : QId) (v : Queue) : (s.setQ q v).aclk1 = s.aclk1 := rfl
@[simp] theorem State.setQ_bridges (s : State) (q : QId) (v : Queue) : (s.setQ q v).bridges = s.bridges := rfl
@[simp] theorem State.setQ_bridgeSp (s : State) (q : QId) (v : Queue) : (s.setQ q v).bridgeSp = s.bridgeSp := rfl
@[simp] theorem State.setQ_bridgeCh (s : State) (q : QId) (v : Queue) : (s.setQ q v).bridgeCh = s.bridgeCh := rfl
@[simp] theorem State.setQ_msixOpen (s : State) (q : QId) (v : Queue) : (s.setQ q v).msixOpen = s.msixOpen := rfl
@[simp] theorem State.setQ_msixTab (s : State) (q : QId) (v : Queue) : (s.setQ q v).msixTab = s.msixTab := rfl
@[simp] theorem State.setQ_msixPend (s : State) (q : QId) (v : Queue) : (s.setQ q v).msixPend = s.msixPend := rfl
@[simp] theorem State.setQ_scrubNow (s : State) (q : QId) (v : Queue) : (s.setQ q v).scrubNow = s.scrubNow := rfl
@[simp] theorem State.setQ_remapPtr (s : State) (q : QId) (v : Queue) : (s.setQ q v).remapPtr = s.remapPtr := rfl
@[simp] theorem State.setQ_refresh (s : State) (q : QId) (v : Queue) : (s.setQ q v).refresh = s.refresh := rfl
@[simp] theorem State.setQ_fresh (s : State) (q : QId) (v : Queue) : (s.setQ q v).fresh = s.fresh := rfl
@[simp] theorem State.setQ_out (s : State) (q : QId) (v : Queue) : (s.setQ q v).out = s.out := rfl
@[simp] theorem State.setQ_pending (s : State) (q : QId) (v : Queue) : (s.setQ q v).pending = s.pending := rfl
@[simp] theorem State.rd_setQ (s : State) (q : QId) (v : Queue) (x : Nat) (g : Field) : (s.setQ q v).rd x g = s.rd x g := rfl
@[simp] theorem State.bit_setQ (s : State) (q : QId) (v : Queue) (x : Nat) (g : Field) : (s.setQ q v).bit x g = s.bit x g := rfl
@[simp] theorem State.tile_setQ (s : State) (q : QId) (v : Queue) (u : Nat) : (s.setQ q v).tile u = s.tile u := rfl
@[simp] theorem State.ctr_setQ (s : State) (q : QId) (v : Queue) (a c : Nat) : (s.setQ q v).ctr a c = s.ctr a c := rfl
@[simp] theorem State.ret_setQ (s : State) (q : QId) (v : Queue) (a c : Nat) : (s.setQ q v).ret a c = s.ret a c := rfl
@[simp] theorem State.part_setQ (s : State) (q : QId) (v : Queue) (a : Nat) : (s.setQ q v).part a = s.part a := rfl
@[simp] theorem State.link_setQ (s : State) (q : QId) (v : Queue) (a : Nat) : (s.setQ q v).link a = s.link a := rfl
@[simp] theorem State.ns_setQ (s : State) (q : QId) (v : Queue) : (s.setQ q v).ns = s.ns := rfl
@[simp] theorem State.nclk_setQ (s : State) (q : QId) (v : Queue) : (s.setQ q v).nclk = s.nclk := rfl
@[simp] theorem State.active_setQ (s : State) (q : QId) (v : Queue) (a : Nat) : (s.setQ q v).active a = s.active a := rfl
@[simp] theorem State.packPart_setQ (s : State) (q : QId) (v : Queue) (a : Nat) : (s.setQ q v).packPart a = s.packPart a := rfl
@[simp] theorem State.partPacks_setQ (s : State) (q : QId) (v : Queue) (a : Nat) : (s.setQ q v).partPacks a = s.partPacks a := rfl
@[simp] theorem State.partStacks_setQ (s : State) (q : QId) (v : Queue) (a : Nat) : (s.setQ q v).partStacks a = s.partStacks a := rfl
@[simp] theorem State.tilePresent_setQ (s : State) (q : QId) (v : Queue) (a : Nat) : (s.setQ q v).tilePresent a = s.tilePresent a := rfl
@[simp] theorem State.packTiles_setQ (s : State) (q : QId) (v : Queue) (a : Nat) : (s.setQ q v).packTiles a = s.packTiles a := rfl
@[simp] theorem State.qHead_setQ (s : State) (q : QId) (v : Queue) (r : QId) : (s.setQ q v).qHead r = s.qHead r := rfl
@[simp] theorem State.qTail_setQ (s : State) (q : QId) (v : Queue) (r : QId) : (s.setQ q v).qTail r = s.qTail r := rfl
@[simp] theorem State.qPart_setQ (s : State) (q : QId) (v : Queue) (r : QId) : (s.setQ q v).qPart r = s.qPart r := rfl
@[simp] theorem State.inRange_setQ (s : State) (q : QId) (v : Queue) (a c : Nat) : (s.setQ q v).inRange a c = s.inRange a c := rfl
@[simp] theorem State.stackPart_setQ (s : State) (q : QId) (v : Queue) (a : Nat) : (s.setQ q v).stackPart a = s.stackPart a := rfl
@[simp] theorem State.inPartHbm_setQ (s : State) (q : QId) (v : Queue) (a c d : Nat) : (s.setQ q v).inPartHbm a c d = s.inPartHbm a c d := rfl
@[simp] theorem State.domain_setQ (s : State) (q : QId) (v : Queue) (a : Nat) : (s.setQ q v).domain a = s.domain a := rfl
@[simp] theorem State.hbmPlace_setQ (s : State) (q : QId) (v : Queue) (a : Nat) : (s.setQ q v).hbmPlace a = s.hbmPlace a := rfl
@[simp] theorem State.lkState_setQ (s : State) (q : QId) (v : Queue) (a : Nat) : (s.setQ q v).lkState a = s.lkState a := rfl
@[simp] theorem State.flows_setQ (s : State) (q : QId) (v : Queue) (a : Nat) : (s.setQ q v).flows a = s.flows a := rfl
@[simp] theorem State.coord_setQ (s : State) (q : QId) (v : Queue) : (s.setQ q v).coord = s.coord := rfl

/-! After a tile is set. -/

@[simp] theorem State.setT_ident (s : State) (t : Nat) (v : Tile) : (s.setT t v).ident = s.ident := rfl
@[simp] theorem State.setT_kn (s : State) (t : Nat) (v : Tile) : (s.setT t v).kn = s.kn := rfl
@[simp] theorem State.setT_shp (s : State) (t : Nat) (v : Tile) : (s.setT t v).shp = s.shp := rfl
@[simp] theorem State.setT_pmus (s : State) (t : Nat) (v : Tile) : (s.setT t v).pmus = s.pmus := rfl
@[simp] theorem State.setT_fns (s : State) (t : Nat) (v : Tile) : (s.setT t v).fns = s.fns := rfl
@[simp] theorem State.setT_tsync (s : State) (t : Nat) (v : Tile) : (s.setT t v).tsync = s.tsync := rfl
@[simp] theorem State.setT_parts (s : State) (t : Nat) (v : Tile) : (s.setT t v).parts = s.parts := rfl
@[simp] theorem State.setT_regs (s : State) (t : Nat) (v : Tile) : (s.setT t v).regs = s.regs := rfl
@[simp] theorem State.setT_mem (s : State) (t : Nat) (v : Tile) : (s.setT t v).mem = s.mem := rfl
@[simp] theorem State.setT_herr (s : State) (t : Nat) (v : Tile) : (s.setT t v).herr = s.herr := rfl
@[simp] theorem State.setT_tiles (s : State) (t : Nat) (v : Tile) : (s.setT t v).tiles = tset s.tiles t v := rfl
@[simp] theorem State.setT_queues (s : State) (t : Nat) (v : Tile) : (s.setT t v).queues = s.queues := rfl
@[simp] theorem State.setT_ctrs (s : State) (t : Nat) (v : Tile) : (s.setT t v).ctrs = s.ctrs := rfl
@[simp] theorem State.setT_rets (s : State) (t : Nat) (v : Tile) : (s.setT t v).rets = s.rets := rfl
@[simp] theorem State.setT_links (s : State) (t : Nat) (v : Tile) : (s.setT t v).links = s.links := rfl
@[simp] theorem State.setT_rte (s : State) (t : Nat) (v : Tile) : (s.setT t v).rte = s.rte := rfl
@[simp] theorem State.setT_xfers (s : State) (t : Nat) (v : Tile) : (s.setT t v).xfers = s.xfers := rfl
@[simp] theorem State.setT_xferNext (s : State) (t : Nat) (v : Tile) : (s.setT t v).xferNext = s.xferNext := rfl
@[simp] theorem State.setT_haccs (s : State) (t : Nat) (v : Tile) : (s.setT t v).haccs = s.haccs := rfl
@[simp] theorem State.setT_haccNext (s : State) (t : Nat) (v : Tile) : (s.setT t v).haccNext = s.haccNext := rfl
@[simp] theorem State.setT_hpieces (s : State) (t : Nat) (v : Tile) : (s.setT t v).hpieces = s.hpieces := rfl
@[simp] theorem State.setT_hpieceNext (s : State) (t : Nat) (v : Tile) : (s.setT t v).hpieceNext = s.hpieceNext := rfl
@[simp] theorem State.setT_lastLd (s : State) (t : Nat) (v : Tile) : (s.setT t v).lastLd = s.lastLd := rfl
@[simp] theorem State.setT_telAt (s : State) (t : Nat) (v : Tile) : (s.setT t v).telAt = s.telAt := rfl
@[simp] theorem State.setT_time (s : State) (t : Nat) (v : Tile) : (s.setT t v).time = s.time := rfl
@[simp] theorem State.setT_clock (s : State) (t : Nat) (v : Tile) : (s.setT t v).clock = s.clock := rfl
@[simp] theorem State.setT_aclk0 (s : State) (t : Nat) (v : Tile) : (s.setT t v).aclk0 = s.aclk0 := rfl
@[simp] theorem State.setT_aclk1 (s : State) (t : Nat) (v : Tile) : (s.setT t v).aclk1 = s.aclk1 := rfl
@[simp] theorem State.setT_bridges (s : State) (t : Nat) (v : Tile) : (s.setT t v).bridges = s.bridges := rfl
@[simp] theorem State.setT_bridgeSp (s : State) (t : Nat) (v : Tile) : (s.setT t v).bridgeSp = s.bridgeSp := rfl
@[simp] theorem State.setT_bridgeCh (s : State) (t : Nat) (v : Tile) : (s.setT t v).bridgeCh = s.bridgeCh := rfl
@[simp] theorem State.setT_msixOpen (s : State) (t : Nat) (v : Tile) : (s.setT t v).msixOpen = s.msixOpen := rfl
@[simp] theorem State.setT_msixTab (s : State) (t : Nat) (v : Tile) : (s.setT t v).msixTab = s.msixTab := rfl
@[simp] theorem State.setT_msixPend (s : State) (t : Nat) (v : Tile) : (s.setT t v).msixPend = s.msixPend := rfl
@[simp] theorem State.setT_scrubNow (s : State) (t : Nat) (v : Tile) : (s.setT t v).scrubNow = s.scrubNow := rfl
@[simp] theorem State.setT_remapPtr (s : State) (t : Nat) (v : Tile) : (s.setT t v).remapPtr = s.remapPtr := rfl
@[simp] theorem State.setT_refresh (s : State) (t : Nat) (v : Tile) : (s.setT t v).refresh = s.refresh := rfl
@[simp] theorem State.setT_fresh (s : State) (t : Nat) (v : Tile) : (s.setT t v).fresh = s.fresh := rfl
@[simp] theorem State.setT_out (s : State) (t : Nat) (v : Tile) : (s.setT t v).out = s.out := rfl
@[simp] theorem State.setT_pending (s : State) (t : Nat) (v : Tile) : (s.setT t v).pending = s.pending := rfl
@[simp] theorem State.rd_setT (s : State) (t : Nat) (v : Tile) (x : Nat) (g : Field) : (s.setT t v).rd x g = s.rd x g := rfl
@[simp] theorem State.bit_setT (s : State) (t : Nat) (v : Tile) (x : Nat) (g : Field) : (s.setT t v).bit x g = s.bit x g := rfl
@[simp] theorem State.queue_setT (s : State) (t : Nat) (v : Tile) (r : QId) : (s.setT t v).queue r = s.queue r := rfl
@[simp] theorem State.ctr_setT (s : State) (t : Nat) (v : Tile) (a c : Nat) : (s.setT t v).ctr a c = s.ctr a c := rfl
@[simp] theorem State.ret_setT (s : State) (t : Nat) (v : Tile) (a c : Nat) : (s.setT t v).ret a c = s.ret a c := rfl
@[simp] theorem State.part_setT (s : State) (t : Nat) (v : Tile) (a : Nat) : (s.setT t v).part a = s.part a := rfl
@[simp] theorem State.link_setT (s : State) (t : Nat) (v : Tile) (a : Nat) : (s.setT t v).link a = s.link a := rfl
@[simp] theorem State.ns_setT (s : State) (t : Nat) (v : Tile) : (s.setT t v).ns = s.ns := rfl
@[simp] theorem State.nclk_setT (s : State) (t : Nat) (v : Tile) : (s.setT t v).nclk = s.nclk := rfl
@[simp] theorem State.active_setT (s : State) (t : Nat) (v : Tile) (a : Nat) : (s.setT t v).active a = s.active a := rfl
@[simp] theorem State.packPart_setT (s : State) (t : Nat) (v : Tile) (a : Nat) : (s.setT t v).packPart a = s.packPart a := rfl
@[simp] theorem State.partPacks_setT (s : State) (t : Nat) (v : Tile) (a : Nat) : (s.setT t v).partPacks a = s.partPacks a := rfl
@[simp] theorem State.partStacks_setT (s : State) (t : Nat) (v : Tile) (a : Nat) : (s.setT t v).partStacks a = s.partStacks a := rfl
@[simp] theorem State.tilePresent_setT (s : State) (t : Nat) (v : Tile) (a : Nat) : (s.setT t v).tilePresent a = s.tilePresent a := rfl
@[simp] theorem State.packTiles_setT (s : State) (t : Nat) (v : Tile) (a : Nat) : (s.setT t v).packTiles a = s.packTiles a := rfl
@[simp] theorem State.qHead_setT (s : State) (t : Nat) (v : Tile) (r : QId) : (s.setT t v).qHead r = s.qHead r := rfl
@[simp] theorem State.qTail_setT (s : State) (t : Nat) (v : Tile) (r : QId) : (s.setT t v).qTail r = s.qTail r := rfl
@[simp] theorem State.qPart_setT (s : State) (t : Nat) (v : Tile) (r : QId) : (s.setT t v).qPart r = s.qPart r := rfl
@[simp] theorem State.inRange_setT (s : State) (t : Nat) (v : Tile) (a c : Nat) : (s.setT t v).inRange a c = s.inRange a c := rfl
@[simp] theorem State.stackPart_setT (s : State) (t : Nat) (v : Tile) (a : Nat) : (s.setT t v).stackPart a = s.stackPart a := rfl
@[simp] theorem State.inPartHbm_setT (s : State) (t : Nat) (v : Tile) (a c d : Nat) : (s.setT t v).inPartHbm a c d = s.inPartHbm a c d := rfl
@[simp] theorem State.domain_setT (s : State) (t : Nat) (v : Tile) (a : Nat) : (s.setT t v).domain a = s.domain a := rfl
@[simp] theorem State.hbmPlace_setT (s : State) (t : Nat) (v : Tile) (a : Nat) : (s.setT t v).hbmPlace a = s.hbmPlace a := rfl
@[simp] theorem State.lkState_setT (s : State) (t : Nat) (v : Tile) (a : Nat) : (s.setT t v).lkState a = s.lkState a := rfl
@[simp] theorem State.flows_setT (s : State) (t : Nat) (v : Tile) (a : Nat) : (s.setT t v).flows a = s.flows a := rfl
@[simp] theorem State.coord_setT (s : State) (t : Nat) (v : Tile) : (s.setT t v).coord = s.coord := rfl

/-! After a counter is set. -/

@[simp] theorem State.setC_ident (s : State) (p i : Nat) (v : Ctr) : (s.setC p i v).ident = s.ident := rfl
@[simp] theorem State.setC_kn (s : State) (p i : Nat) (v : Ctr) : (s.setC p i v).kn = s.kn := rfl
@[simp] theorem State.setC_shp (s : State) (p i : Nat) (v : Ctr) : (s.setC p i v).shp = s.shp := rfl
@[simp] theorem State.setC_pmus (s : State) (p i : Nat) (v : Ctr) : (s.setC p i v).pmus = s.pmus := rfl
@[simp] theorem State.setC_fns (s : State) (p i : Nat) (v : Ctr) : (s.setC p i v).fns = s.fns := rfl
@[simp] theorem State.setC_tsync (s : State) (p i : Nat) (v : Ctr) : (s.setC p i v).tsync = s.tsync := rfl
@[simp] theorem State.setC_parts (s : State) (p i : Nat) (v : Ctr) : (s.setC p i v).parts = s.parts := rfl
@[simp] theorem State.setC_regs (s : State) (p i : Nat) (v : Ctr) : (s.setC p i v).regs = s.regs := rfl
@[simp] theorem State.setC_mem (s : State) (p i : Nat) (v : Ctr) : (s.setC p i v).mem = s.mem := rfl
@[simp] theorem State.setC_herr (s : State) (p i : Nat) (v : Ctr) : (s.setC p i v).herr = s.herr := rfl
@[simp] theorem State.setC_tiles (s : State) (p i : Nat) (v : Ctr) : (s.setC p i v).tiles = s.tiles := rfl
@[simp] theorem State.setC_queues (s : State) (p i : Nat) (v : Ctr) : (s.setC p i v).queues = s.queues := rfl
@[simp] theorem State.setC_ctrs (s : State) (p i : Nat) (v : Ctr) : (s.setC p i v).ctrs = tset s.ctrs (p * 1024 + i) v := rfl
@[simp] theorem State.setC_rets (s : State) (p i : Nat) (v : Ctr) : (s.setC p i v).rets = s.rets := rfl
@[simp] theorem State.setC_links (s : State) (p i : Nat) (v : Ctr) : (s.setC p i v).links = s.links := rfl
@[simp] theorem State.setC_rte (s : State) (p i : Nat) (v : Ctr) : (s.setC p i v).rte = s.rte := rfl
@[simp] theorem State.setC_xfers (s : State) (p i : Nat) (v : Ctr) : (s.setC p i v).xfers = s.xfers := rfl
@[simp] theorem State.setC_xferNext (s : State) (p i : Nat) (v : Ctr) : (s.setC p i v).xferNext = s.xferNext := rfl
@[simp] theorem State.setC_haccs (s : State) (p i : Nat) (v : Ctr) : (s.setC p i v).haccs = s.haccs := rfl
@[simp] theorem State.setC_haccNext (s : State) (p i : Nat) (v : Ctr) : (s.setC p i v).haccNext = s.haccNext := rfl
@[simp] theorem State.setC_hpieces (s : State) (p i : Nat) (v : Ctr) : (s.setC p i v).hpieces = s.hpieces := rfl
@[simp] theorem State.setC_hpieceNext (s : State) (p i : Nat) (v : Ctr) : (s.setC p i v).hpieceNext = s.hpieceNext := rfl
@[simp] theorem State.setC_lastLd (s : State) (p i : Nat) (v : Ctr) : (s.setC p i v).lastLd = s.lastLd := rfl
@[simp] theorem State.setC_telAt (s : State) (p i : Nat) (v : Ctr) : (s.setC p i v).telAt = s.telAt := rfl
@[simp] theorem State.setC_time (s : State) (p i : Nat) (v : Ctr) : (s.setC p i v).time = s.time := rfl
@[simp] theorem State.setC_clock (s : State) (p i : Nat) (v : Ctr) : (s.setC p i v).clock = s.clock := rfl
@[simp] theorem State.setC_aclk0 (s : State) (p i : Nat) (v : Ctr) : (s.setC p i v).aclk0 = s.aclk0 := rfl
@[simp] theorem State.setC_aclk1 (s : State) (p i : Nat) (v : Ctr) : (s.setC p i v).aclk1 = s.aclk1 := rfl
@[simp] theorem State.setC_bridges (s : State) (p i : Nat) (v : Ctr) : (s.setC p i v).bridges = s.bridges := rfl
@[simp] theorem State.setC_bridgeSp (s : State) (p i : Nat) (v : Ctr) : (s.setC p i v).bridgeSp = s.bridgeSp := rfl
@[simp] theorem State.setC_bridgeCh (s : State) (p i : Nat) (v : Ctr) : (s.setC p i v).bridgeCh = s.bridgeCh := rfl
@[simp] theorem State.setC_msixOpen (s : State) (p i : Nat) (v : Ctr) : (s.setC p i v).msixOpen = s.msixOpen := rfl
@[simp] theorem State.setC_msixTab (s : State) (p i : Nat) (v : Ctr) : (s.setC p i v).msixTab = s.msixTab := rfl
@[simp] theorem State.setC_msixPend (s : State) (p i : Nat) (v : Ctr) : (s.setC p i v).msixPend = s.msixPend := rfl
@[simp] theorem State.setC_scrubNow (s : State) (p i : Nat) (v : Ctr) : (s.setC p i v).scrubNow = s.scrubNow := rfl
@[simp] theorem State.setC_remapPtr (s : State) (p i : Nat) (v : Ctr) : (s.setC p i v).remapPtr = s.remapPtr := rfl
@[simp] theorem State.setC_refresh (s : State) (p i : Nat) (v : Ctr) : (s.setC p i v).refresh = s.refresh := rfl
@[simp] theorem State.setC_fresh (s : State) (p i : Nat) (v : Ctr) : (s.setC p i v).fresh = s.fresh := rfl
@[simp] theorem State.setC_out (s : State) (p i : Nat) (v : Ctr) : (s.setC p i v).out = s.out := rfl
@[simp] theorem State.setC_pending (s : State) (p i : Nat) (v : Ctr) : (s.setC p i v).pending = s.pending := rfl
@[simp] theorem State.rd_setC (s : State) (p i : Nat) (v : Ctr) (x : Nat) (g : Field) : (s.setC p i v).rd x g = s.rd x g := rfl
@[simp] theorem State.bit_setC (s : State) (p i : Nat) (v : Ctr) (x : Nat) (g : Field) : (s.setC p i v).bit x g = s.bit x g := rfl
@[simp] theorem State.queue_setC (s : State) (p i : Nat) (v : Ctr) (r : QId) : (s.setC p i v).queue r = s.queue r := rfl
@[simp] theorem State.tile_setC (s : State) (p i : Nat) (v : Ctr) (u : Nat) : (s.setC p i v).tile u = s.tile u := rfl
@[simp] theorem State.ret_setC (s : State) (p i : Nat) (v : Ctr) (a c : Nat) : (s.setC p i v).ret a c = s.ret a c := rfl
@[simp] theorem State.part_setC (s : State) (p i : Nat) (v : Ctr) (a : Nat) : (s.setC p i v).part a = s.part a := rfl
@[simp] theorem State.link_setC (s : State) (p i : Nat) (v : Ctr) (a : Nat) : (s.setC p i v).link a = s.link a := rfl
@[simp] theorem State.ns_setC (s : State) (p i : Nat) (v : Ctr) : (s.setC p i v).ns = s.ns := rfl
@[simp] theorem State.nclk_setC (s : State) (p i : Nat) (v : Ctr) : (s.setC p i v).nclk = s.nclk := rfl
@[simp] theorem State.active_setC (s : State) (p i : Nat) (v : Ctr) (a : Nat) : (s.setC p i v).active a = s.active a := rfl
@[simp] theorem State.packPart_setC (s : State) (p i : Nat) (v : Ctr) (a : Nat) : (s.setC p i v).packPart a = s.packPart a := rfl
@[simp] theorem State.partPacks_setC (s : State) (p i : Nat) (v : Ctr) (a : Nat) : (s.setC p i v).partPacks a = s.partPacks a := rfl
@[simp] theorem State.partStacks_setC (s : State) (p i : Nat) (v : Ctr) (a : Nat) : (s.setC p i v).partStacks a = s.partStacks a := rfl
@[simp] theorem State.tilePresent_setC (s : State) (p i : Nat) (v : Ctr) (a : Nat) : (s.setC p i v).tilePresent a = s.tilePresent a := rfl
@[simp] theorem State.packTiles_setC (s : State) (p i : Nat) (v : Ctr) (a : Nat) : (s.setC p i v).packTiles a = s.packTiles a := rfl
@[simp] theorem State.qHead_setC (s : State) (p i : Nat) (v : Ctr) (r : QId) : (s.setC p i v).qHead r = s.qHead r := rfl
@[simp] theorem State.qTail_setC (s : State) (p i : Nat) (v : Ctr) (r : QId) : (s.setC p i v).qTail r = s.qTail r := rfl
@[simp] theorem State.qPart_setC (s : State) (p i : Nat) (v : Ctr) (r : QId) : (s.setC p i v).qPart r = s.qPart r := rfl
@[simp] theorem State.inRange_setC (s : State) (p i : Nat) (v : Ctr) (a c : Nat) : (s.setC p i v).inRange a c = s.inRange a c := rfl
@[simp] theorem State.stackPart_setC (s : State) (p i : Nat) (v : Ctr) (a : Nat) : (s.setC p i v).stackPart a = s.stackPart a := rfl
@[simp] theorem State.inPartHbm_setC (s : State) (p i : Nat) (v : Ctr) (a c d : Nat) : (s.setC p i v).inPartHbm a c d = s.inPartHbm a c d := rfl
@[simp] theorem State.domain_setC (s : State) (p i : Nat) (v : Ctr) (a : Nat) : (s.setC p i v).domain a = s.domain a := rfl
@[simp] theorem State.hbmPlace_setC (s : State) (p i : Nat) (v : Ctr) (a : Nat) : (s.setC p i v).hbmPlace a = s.hbmPlace a := rfl
@[simp] theorem State.lkState_setC (s : State) (p i : Nat) (v : Ctr) (a : Nat) : (s.setC p i v).lkState a = s.lkState a := rfl
@[simp] theorem State.flows_setC (s : State) (p i : Nat) (v : Ctr) (a : Nat) : (s.setC p i v).flows a = s.flows a := rfl
@[simp] theorem State.coord_setC (s : State) (p i : Nat) (v : Ctr) : (s.setC p i v).coord = s.coord := rfl

/-! After a Retriever is set. -/

@[simp] theorem State.setR_ident (s : State) (p n : Nat) (v : Ret) : (s.setR p n v).ident = s.ident := rfl
@[simp] theorem State.setR_kn (s : State) (p n : Nat) (v : Ret) : (s.setR p n v).kn = s.kn := rfl
@[simp] theorem State.setR_shp (s : State) (p n : Nat) (v : Ret) : (s.setR p n v).shp = s.shp := rfl
@[simp] theorem State.setR_pmus (s : State) (p n : Nat) (v : Ret) : (s.setR p n v).pmus = s.pmus := rfl
@[simp] theorem State.setR_fns (s : State) (p n : Nat) (v : Ret) : (s.setR p n v).fns = s.fns := rfl
@[simp] theorem State.setR_tsync (s : State) (p n : Nat) (v : Ret) : (s.setR p n v).tsync = s.tsync := rfl
@[simp] theorem State.setR_parts (s : State) (p n : Nat) (v : Ret) : (s.setR p n v).parts = s.parts := rfl
@[simp] theorem State.setR_regs (s : State) (p n : Nat) (v : Ret) : (s.setR p n v).regs = s.regs := rfl
@[simp] theorem State.setR_mem (s : State) (p n : Nat) (v : Ret) : (s.setR p n v).mem = s.mem := rfl
@[simp] theorem State.setR_herr (s : State) (p n : Nat) (v : Ret) : (s.setR p n v).herr = s.herr := rfl
@[simp] theorem State.setR_tiles (s : State) (p n : Nat) (v : Ret) : (s.setR p n v).tiles = s.tiles := rfl
@[simp] theorem State.setR_queues (s : State) (p n : Nat) (v : Ret) : (s.setR p n v).queues = s.queues := rfl
@[simp] theorem State.setR_ctrs (s : State) (p n : Nat) (v : Ret) : (s.setR p n v).ctrs = s.ctrs := rfl
@[simp] theorem State.setR_rets (s : State) (p n : Nat) (v : Ret) : (s.setR p n v).rets = tset s.rets (p * 4 + n) v := rfl
@[simp] theorem State.setR_links (s : State) (p n : Nat) (v : Ret) : (s.setR p n v).links = s.links := rfl
@[simp] theorem State.setR_rte (s : State) (p n : Nat) (v : Ret) : (s.setR p n v).rte = s.rte := rfl
@[simp] theorem State.setR_xfers (s : State) (p n : Nat) (v : Ret) : (s.setR p n v).xfers = s.xfers := rfl
@[simp] theorem State.setR_xferNext (s : State) (p n : Nat) (v : Ret) : (s.setR p n v).xferNext = s.xferNext := rfl
@[simp] theorem State.setR_haccs (s : State) (p n : Nat) (v : Ret) : (s.setR p n v).haccs = s.haccs := rfl
@[simp] theorem State.setR_haccNext (s : State) (p n : Nat) (v : Ret) : (s.setR p n v).haccNext = s.haccNext := rfl
@[simp] theorem State.setR_hpieces (s : State) (p n : Nat) (v : Ret) : (s.setR p n v).hpieces = s.hpieces := rfl
@[simp] theorem State.setR_hpieceNext (s : State) (p n : Nat) (v : Ret) : (s.setR p n v).hpieceNext = s.hpieceNext := rfl
@[simp] theorem State.setR_lastLd (s : State) (p n : Nat) (v : Ret) : (s.setR p n v).lastLd = s.lastLd := rfl
@[simp] theorem State.setR_telAt (s : State) (p n : Nat) (v : Ret) : (s.setR p n v).telAt = s.telAt := rfl
@[simp] theorem State.setR_time (s : State) (p n : Nat) (v : Ret) : (s.setR p n v).time = s.time := rfl
@[simp] theorem State.setR_clock (s : State) (p n : Nat) (v : Ret) : (s.setR p n v).clock = s.clock := rfl
@[simp] theorem State.setR_aclk0 (s : State) (p n : Nat) (v : Ret) : (s.setR p n v).aclk0 = s.aclk0 := rfl
@[simp] theorem State.setR_aclk1 (s : State) (p n : Nat) (v : Ret) : (s.setR p n v).aclk1 = s.aclk1 := rfl
@[simp] theorem State.setR_bridges (s : State) (p n : Nat) (v : Ret) : (s.setR p n v).bridges = s.bridges := rfl
@[simp] theorem State.setR_bridgeSp (s : State) (p n : Nat) (v : Ret) : (s.setR p n v).bridgeSp = s.bridgeSp := rfl
@[simp] theorem State.setR_bridgeCh (s : State) (p n : Nat) (v : Ret) : (s.setR p n v).bridgeCh = s.bridgeCh := rfl
@[simp] theorem State.setR_msixOpen (s : State) (p n : Nat) (v : Ret) : (s.setR p n v).msixOpen = s.msixOpen := rfl
@[simp] theorem State.setR_msixTab (s : State) (p n : Nat) (v : Ret) : (s.setR p n v).msixTab = s.msixTab := rfl
@[simp] theorem State.setR_msixPend (s : State) (p n : Nat) (v : Ret) : (s.setR p n v).msixPend = s.msixPend := rfl
@[simp] theorem State.setR_scrubNow (s : State) (p n : Nat) (v : Ret) : (s.setR p n v).scrubNow = s.scrubNow := rfl
@[simp] theorem State.setR_remapPtr (s : State) (p n : Nat) (v : Ret) : (s.setR p n v).remapPtr = s.remapPtr := rfl
@[simp] theorem State.setR_refresh (s : State) (p n : Nat) (v : Ret) : (s.setR p n v).refresh = s.refresh := rfl
@[simp] theorem State.setR_fresh (s : State) (p n : Nat) (v : Ret) : (s.setR p n v).fresh = s.fresh := rfl
@[simp] theorem State.setR_out (s : State) (p n : Nat) (v : Ret) : (s.setR p n v).out = s.out := rfl
@[simp] theorem State.setR_pending (s : State) (p n : Nat) (v : Ret) : (s.setR p n v).pending = s.pending := rfl
@[simp] theorem State.rd_setR (s : State) (p n : Nat) (v : Ret) (x : Nat) (g : Field) : (s.setR p n v).rd x g = s.rd x g := rfl
@[simp] theorem State.bit_setR (s : State) (p n : Nat) (v : Ret) (x : Nat) (g : Field) : (s.setR p n v).bit x g = s.bit x g := rfl
@[simp] theorem State.queue_setR (s : State) (p n : Nat) (v : Ret) (r : QId) : (s.setR p n v).queue r = s.queue r := rfl
@[simp] theorem State.tile_setR (s : State) (p n : Nat) (v : Ret) (u : Nat) : (s.setR p n v).tile u = s.tile u := rfl
@[simp] theorem State.ctr_setR (s : State) (p n : Nat) (v : Ret) (a c : Nat) : (s.setR p n v).ctr a c = s.ctr a c := rfl
@[simp] theorem State.part_setR (s : State) (p n : Nat) (v : Ret) (a : Nat) : (s.setR p n v).part a = s.part a := rfl
@[simp] theorem State.link_setR (s : State) (p n : Nat) (v : Ret) (a : Nat) : (s.setR p n v).link a = s.link a := rfl
@[simp] theorem State.ns_setR (s : State) (p n : Nat) (v : Ret) : (s.setR p n v).ns = s.ns := rfl
@[simp] theorem State.nclk_setR (s : State) (p n : Nat) (v : Ret) : (s.setR p n v).nclk = s.nclk := rfl
@[simp] theorem State.active_setR (s : State) (p n : Nat) (v : Ret) (a : Nat) : (s.setR p n v).active a = s.active a := rfl
@[simp] theorem State.packPart_setR (s : State) (p n : Nat) (v : Ret) (a : Nat) : (s.setR p n v).packPart a = s.packPart a := rfl
@[simp] theorem State.partPacks_setR (s : State) (p n : Nat) (v : Ret) (a : Nat) : (s.setR p n v).partPacks a = s.partPacks a := rfl
@[simp] theorem State.partStacks_setR (s : State) (p n : Nat) (v : Ret) (a : Nat) : (s.setR p n v).partStacks a = s.partStacks a := rfl
@[simp] theorem State.tilePresent_setR (s : State) (p n : Nat) (v : Ret) (a : Nat) : (s.setR p n v).tilePresent a = s.tilePresent a := rfl
@[simp] theorem State.packTiles_setR (s : State) (p n : Nat) (v : Ret) (a : Nat) : (s.setR p n v).packTiles a = s.packTiles a := rfl
@[simp] theorem State.qHead_setR (s : State) (p n : Nat) (v : Ret) (r : QId) : (s.setR p n v).qHead r = s.qHead r := rfl
@[simp] theorem State.qTail_setR (s : State) (p n : Nat) (v : Ret) (r : QId) : (s.setR p n v).qTail r = s.qTail r := rfl
@[simp] theorem State.qPart_setR (s : State) (p n : Nat) (v : Ret) (r : QId) : (s.setR p n v).qPart r = s.qPart r := rfl
@[simp] theorem State.inRange_setR (s : State) (p n : Nat) (v : Ret) (a c : Nat) : (s.setR p n v).inRange a c = s.inRange a c := rfl
@[simp] theorem State.stackPart_setR (s : State) (p n : Nat) (v : Ret) (a : Nat) : (s.setR p n v).stackPart a = s.stackPart a := rfl
@[simp] theorem State.inPartHbm_setR (s : State) (p n : Nat) (v : Ret) (a c d : Nat) : (s.setR p n v).inPartHbm a c d = s.inPartHbm a c d := rfl
@[simp] theorem State.domain_setR (s : State) (p n : Nat) (v : Ret) (a : Nat) : (s.setR p n v).domain a = s.domain a := rfl
@[simp] theorem State.hbmPlace_setR (s : State) (p n : Nat) (v : Ret) (a : Nat) : (s.setR p n v).hbmPlace a = s.hbmPlace a := rfl
@[simp] theorem State.lkState_setR (s : State) (p n : Nat) (v : Ret) (a : Nat) : (s.setR p n v).lkState a = s.lkState a := rfl
@[simp] theorem State.flows_setR (s : State) (p n : Nat) (v : Ret) (a : Nat) : (s.setR p n v).flows a = s.flows a := rfl
@[simp] theorem State.coord_setR (s : State) (p n : Nat) (v : Ret) : (s.setR p n v).coord = s.coord := rfl

/-! After a partition is set. -/

@[simp] theorem State.setP_ident (s : State) (k : Nat) (v : Part) : (s.setP k v).ident = s.ident := rfl
@[simp] theorem State.setP_kn (s : State) (k : Nat) (v : Part) : (s.setP k v).kn = s.kn := rfl
@[simp] theorem State.setP_shp (s : State) (k : Nat) (v : Part) : (s.setP k v).shp = s.shp := rfl
@[simp] theorem State.setP_pmus (s : State) (k : Nat) (v : Part) : (s.setP k v).pmus = s.pmus := rfl
@[simp] theorem State.setP_fns (s : State) (k : Nat) (v : Part) : (s.setP k v).fns = s.fns := rfl
@[simp] theorem State.setP_tsync (s : State) (k : Nat) (v : Part) : (s.setP k v).tsync = s.tsync := rfl
@[simp] theorem State.setP_parts (s : State) (k : Nat) (v : Part) : (s.setP k v).parts = tset s.parts k v := rfl
@[simp] theorem State.setP_regs (s : State) (k : Nat) (v : Part) : (s.setP k v).regs = s.regs := rfl
@[simp] theorem State.setP_mem (s : State) (k : Nat) (v : Part) : (s.setP k v).mem = s.mem := rfl
@[simp] theorem State.setP_herr (s : State) (k : Nat) (v : Part) : (s.setP k v).herr = s.herr := rfl
@[simp] theorem State.setP_tiles (s : State) (k : Nat) (v : Part) : (s.setP k v).tiles = s.tiles := rfl
@[simp] theorem State.setP_queues (s : State) (k : Nat) (v : Part) : (s.setP k v).queues = s.queues := rfl
@[simp] theorem State.setP_ctrs (s : State) (k : Nat) (v : Part) : (s.setP k v).ctrs = s.ctrs := rfl
@[simp] theorem State.setP_rets (s : State) (k : Nat) (v : Part) : (s.setP k v).rets = s.rets := rfl
@[simp] theorem State.setP_links (s : State) (k : Nat) (v : Part) : (s.setP k v).links = s.links := rfl
@[simp] theorem State.setP_rte (s : State) (k : Nat) (v : Part) : (s.setP k v).rte = s.rte := rfl
@[simp] theorem State.setP_xfers (s : State) (k : Nat) (v : Part) : (s.setP k v).xfers = s.xfers := rfl
@[simp] theorem State.setP_xferNext (s : State) (k : Nat) (v : Part) : (s.setP k v).xferNext = s.xferNext := rfl
@[simp] theorem State.setP_haccs (s : State) (k : Nat) (v : Part) : (s.setP k v).haccs = s.haccs := rfl
@[simp] theorem State.setP_haccNext (s : State) (k : Nat) (v : Part) : (s.setP k v).haccNext = s.haccNext := rfl
@[simp] theorem State.setP_hpieces (s : State) (k : Nat) (v : Part) : (s.setP k v).hpieces = s.hpieces := rfl
@[simp] theorem State.setP_hpieceNext (s : State) (k : Nat) (v : Part) : (s.setP k v).hpieceNext = s.hpieceNext := rfl
@[simp] theorem State.setP_lastLd (s : State) (k : Nat) (v : Part) : (s.setP k v).lastLd = s.lastLd := rfl
@[simp] theorem State.setP_telAt (s : State) (k : Nat) (v : Part) : (s.setP k v).telAt = s.telAt := rfl
@[simp] theorem State.setP_time (s : State) (k : Nat) (v : Part) : (s.setP k v).time = s.time := rfl
@[simp] theorem State.setP_clock (s : State) (k : Nat) (v : Part) : (s.setP k v).clock = s.clock := rfl
@[simp] theorem State.setP_aclk0 (s : State) (k : Nat) (v : Part) : (s.setP k v).aclk0 = s.aclk0 := rfl
@[simp] theorem State.setP_aclk1 (s : State) (k : Nat) (v : Part) : (s.setP k v).aclk1 = s.aclk1 := rfl
@[simp] theorem State.setP_bridges (s : State) (k : Nat) (v : Part) : (s.setP k v).bridges = s.bridges := rfl
@[simp] theorem State.setP_bridgeSp (s : State) (k : Nat) (v : Part) : (s.setP k v).bridgeSp = s.bridgeSp := rfl
@[simp] theorem State.setP_bridgeCh (s : State) (k : Nat) (v : Part) : (s.setP k v).bridgeCh = s.bridgeCh := rfl
@[simp] theorem State.setP_msixOpen (s : State) (k : Nat) (v : Part) : (s.setP k v).msixOpen = s.msixOpen := rfl
@[simp] theorem State.setP_msixTab (s : State) (k : Nat) (v : Part) : (s.setP k v).msixTab = s.msixTab := rfl
@[simp] theorem State.setP_msixPend (s : State) (k : Nat) (v : Part) : (s.setP k v).msixPend = s.msixPend := rfl
@[simp] theorem State.setP_scrubNow (s : State) (k : Nat) (v : Part) : (s.setP k v).scrubNow = s.scrubNow := rfl
@[simp] theorem State.setP_remapPtr (s : State) (k : Nat) (v : Part) : (s.setP k v).remapPtr = s.remapPtr := rfl
@[simp] theorem State.setP_refresh (s : State) (k : Nat) (v : Part) : (s.setP k v).refresh = s.refresh := rfl
@[simp] theorem State.setP_fresh (s : State) (k : Nat) (v : Part) : (s.setP k v).fresh = s.fresh := rfl
@[simp] theorem State.setP_out (s : State) (k : Nat) (v : Part) : (s.setP k v).out = s.out := rfl
@[simp] theorem State.setP_pending (s : State) (k : Nat) (v : Part) : (s.setP k v).pending = s.pending := rfl
@[simp] theorem State.rd_setP (s : State) (k : Nat) (v : Part) (x : Nat) (g : Field) : (s.setP k v).rd x g = s.rd x g := rfl
@[simp] theorem State.bit_setP (s : State) (k : Nat) (v : Part) (x : Nat) (g : Field) : (s.setP k v).bit x g = s.bit x g := rfl
@[simp] theorem State.queue_setP (s : State) (k : Nat) (v : Part) (r : QId) : (s.setP k v).queue r = s.queue r := rfl
@[simp] theorem State.tile_setP (s : State) (k : Nat) (v : Part) (u : Nat) : (s.setP k v).tile u = s.tile u := rfl
@[simp] theorem State.ctr_setP (s : State) (k : Nat) (v : Part) (a c : Nat) : (s.setP k v).ctr a c = s.ctr a c := rfl
@[simp] theorem State.ret_setP (s : State) (k : Nat) (v : Part) (a c : Nat) : (s.setP k v).ret a c = s.ret a c := rfl
@[simp] theorem State.link_setP (s : State) (k : Nat) (v : Part) (a : Nat) : (s.setP k v).link a = s.link a := rfl
@[simp] theorem State.ns_setP (s : State) (k : Nat) (v : Part) : (s.setP k v).ns = s.ns := rfl
@[simp] theorem State.nclk_setP (s : State) (k : Nat) (v : Part) : (s.setP k v).nclk = s.nclk := rfl
@[simp] theorem State.active_setP (s : State) (k : Nat) (v : Part) (a : Nat) : (s.setP k v).active a = s.active a := rfl
@[simp] theorem State.packPart_setP (s : State) (k : Nat) (v : Part) (a : Nat) : (s.setP k v).packPart a = s.packPart a := rfl
@[simp] theorem State.partPacks_setP (s : State) (k : Nat) (v : Part) (a : Nat) : (s.setP k v).partPacks a = s.partPacks a := rfl
@[simp] theorem State.partStacks_setP (s : State) (k : Nat) (v : Part) (a : Nat) : (s.setP k v).partStacks a = s.partStacks a := rfl
@[simp] theorem State.tilePresent_setP (s : State) (k : Nat) (v : Part) (a : Nat) : (s.setP k v).tilePresent a = s.tilePresent a := rfl
@[simp] theorem State.packTiles_setP (s : State) (k : Nat) (v : Part) (a : Nat) : (s.setP k v).packTiles a = s.packTiles a := rfl
@[simp] theorem State.qHead_setP (s : State) (k : Nat) (v : Part) (r : QId) : (s.setP k v).qHead r = s.qHead r := rfl
@[simp] theorem State.qTail_setP (s : State) (k : Nat) (v : Part) (r : QId) : (s.setP k v).qTail r = s.qTail r := rfl
@[simp] theorem State.qPart_setP (s : State) (k : Nat) (v : Part) (r : QId) : (s.setP k v).qPart r = s.qPart r := rfl
@[simp] theorem State.inRange_setP (s : State) (k : Nat) (v : Part) (a c : Nat) : (s.setP k v).inRange a c = s.inRange a c := rfl
@[simp] theorem State.stackPart_setP (s : State) (k : Nat) (v : Part) (a : Nat) : (s.setP k v).stackPart a = s.stackPart a := rfl
@[simp] theorem State.inPartHbm_setP (s : State) (k : Nat) (v : Part) (a c d : Nat) : (s.setP k v).inPartHbm a c d = s.inPartHbm a c d := rfl
@[simp] theorem State.domain_setP (s : State) (k : Nat) (v : Part) (a : Nat) : (s.setP k v).domain a = s.domain a := rfl
@[simp] theorem State.hbmPlace_setP (s : State) (k : Nat) (v : Part) (a : Nat) : (s.setP k v).hbmPlace a = s.hbmPlace a := rfl
@[simp] theorem State.lkState_setP (s : State) (k : Nat) (v : Part) (a : Nat) : (s.setP k v).lkState a = s.lkState a := rfl
@[simp] theorem State.flows_setP (s : State) (k : Nat) (v : Part) (a : Nat) : (s.setP k v).flows a = s.flows a := rfl
@[simp] theorem State.coord_setP (s : State) (k : Nat) (v : Part) : (s.setP k v).coord = s.coord := rfl

/-! After a link is set. -/

@[simp] theorem State.setL_ident (s : State) (n : Nat) (v : Link) : (s.setL n v).ident = s.ident := rfl
@[simp] theorem State.setL_kn (s : State) (n : Nat) (v : Link) : (s.setL n v).kn = s.kn := rfl
@[simp] theorem State.setL_shp (s : State) (n : Nat) (v : Link) : (s.setL n v).shp = s.shp := rfl
@[simp] theorem State.setL_pmus (s : State) (n : Nat) (v : Link) : (s.setL n v).pmus = s.pmus := rfl
@[simp] theorem State.setL_fns (s : State) (n : Nat) (v : Link) : (s.setL n v).fns = s.fns := rfl
@[simp] theorem State.setL_tsync (s : State) (n : Nat) (v : Link) : (s.setL n v).tsync = s.tsync := rfl
@[simp] theorem State.setL_parts (s : State) (n : Nat) (v : Link) : (s.setL n v).parts = s.parts := rfl
@[simp] theorem State.setL_regs (s : State) (n : Nat) (v : Link) : (s.setL n v).regs = s.regs := rfl
@[simp] theorem State.setL_mem (s : State) (n : Nat) (v : Link) : (s.setL n v).mem = s.mem := rfl
@[simp] theorem State.setL_herr (s : State) (n : Nat) (v : Link) : (s.setL n v).herr = s.herr := rfl
@[simp] theorem State.setL_tiles (s : State) (n : Nat) (v : Link) : (s.setL n v).tiles = s.tiles := rfl
@[simp] theorem State.setL_queues (s : State) (n : Nat) (v : Link) : (s.setL n v).queues = s.queues := rfl
@[simp] theorem State.setL_ctrs (s : State) (n : Nat) (v : Link) : (s.setL n v).ctrs = s.ctrs := rfl
@[simp] theorem State.setL_rets (s : State) (n : Nat) (v : Link) : (s.setL n v).rets = s.rets := rfl
@[simp] theorem State.setL_links (s : State) (n : Nat) (v : Link) : (s.setL n v).links = tset s.links n v := rfl
@[simp] theorem State.setL_rte (s : State) (n : Nat) (v : Link) : (s.setL n v).rte = s.rte := rfl
@[simp] theorem State.setL_xfers (s : State) (n : Nat) (v : Link) : (s.setL n v).xfers = s.xfers := rfl
@[simp] theorem State.setL_xferNext (s : State) (n : Nat) (v : Link) : (s.setL n v).xferNext = s.xferNext := rfl
@[simp] theorem State.setL_haccs (s : State) (n : Nat) (v : Link) : (s.setL n v).haccs = s.haccs := rfl
@[simp] theorem State.setL_haccNext (s : State) (n : Nat) (v : Link) : (s.setL n v).haccNext = s.haccNext := rfl
@[simp] theorem State.setL_hpieces (s : State) (n : Nat) (v : Link) : (s.setL n v).hpieces = s.hpieces := rfl
@[simp] theorem State.setL_hpieceNext (s : State) (n : Nat) (v : Link) : (s.setL n v).hpieceNext = s.hpieceNext := rfl
@[simp] theorem State.setL_lastLd (s : State) (n : Nat) (v : Link) : (s.setL n v).lastLd = s.lastLd := rfl
@[simp] theorem State.setL_telAt (s : State) (n : Nat) (v : Link) : (s.setL n v).telAt = s.telAt := rfl
@[simp] theorem State.setL_time (s : State) (n : Nat) (v : Link) : (s.setL n v).time = s.time := rfl
@[simp] theorem State.setL_clock (s : State) (n : Nat) (v : Link) : (s.setL n v).clock = s.clock := rfl
@[simp] theorem State.setL_aclk0 (s : State) (n : Nat) (v : Link) : (s.setL n v).aclk0 = s.aclk0 := rfl
@[simp] theorem State.setL_aclk1 (s : State) (n : Nat) (v : Link) : (s.setL n v).aclk1 = s.aclk1 := rfl
@[simp] theorem State.setL_bridges (s : State) (n : Nat) (v : Link) : (s.setL n v).bridges = s.bridges := rfl
@[simp] theorem State.setL_bridgeSp (s : State) (n : Nat) (v : Link) : (s.setL n v).bridgeSp = s.bridgeSp := rfl
@[simp] theorem State.setL_bridgeCh (s : State) (n : Nat) (v : Link) : (s.setL n v).bridgeCh = s.bridgeCh := rfl
@[simp] theorem State.setL_msixOpen (s : State) (n : Nat) (v : Link) : (s.setL n v).msixOpen = s.msixOpen := rfl
@[simp] theorem State.setL_msixTab (s : State) (n : Nat) (v : Link) : (s.setL n v).msixTab = s.msixTab := rfl
@[simp] theorem State.setL_msixPend (s : State) (n : Nat) (v : Link) : (s.setL n v).msixPend = s.msixPend := rfl
@[simp] theorem State.setL_scrubNow (s : State) (n : Nat) (v : Link) : (s.setL n v).scrubNow = s.scrubNow := rfl
@[simp] theorem State.setL_remapPtr (s : State) (n : Nat) (v : Link) : (s.setL n v).remapPtr = s.remapPtr := rfl
@[simp] theorem State.setL_refresh (s : State) (n : Nat) (v : Link) : (s.setL n v).refresh = s.refresh := rfl
@[simp] theorem State.setL_fresh (s : State) (n : Nat) (v : Link) : (s.setL n v).fresh = s.fresh := rfl
@[simp] theorem State.setL_out (s : State) (n : Nat) (v : Link) : (s.setL n v).out = s.out := rfl
@[simp] theorem State.setL_pending (s : State) (n : Nat) (v : Link) : (s.setL n v).pending = s.pending := rfl
@[simp] theorem State.rd_setL (s : State) (n : Nat) (v : Link) (x : Nat) (g : Field) : (s.setL n v).rd x g = s.rd x g := rfl
@[simp] theorem State.bit_setL (s : State) (n : Nat) (v : Link) (x : Nat) (g : Field) : (s.setL n v).bit x g = s.bit x g := rfl
@[simp] theorem State.queue_setL (s : State) (n : Nat) (v : Link) (r : QId) : (s.setL n v).queue r = s.queue r := rfl
@[simp] theorem State.tile_setL (s : State) (n : Nat) (v : Link) (u : Nat) : (s.setL n v).tile u = s.tile u := rfl
@[simp] theorem State.ctr_setL (s : State) (n : Nat) (v : Link) (a c : Nat) : (s.setL n v).ctr a c = s.ctr a c := rfl
@[simp] theorem State.ret_setL (s : State) (n : Nat) (v : Link) (a c : Nat) : (s.setL n v).ret a c = s.ret a c := rfl
@[simp] theorem State.part_setL (s : State) (n : Nat) (v : Link) (a : Nat) : (s.setL n v).part a = s.part a := rfl
@[simp] theorem State.ns_setL (s : State) (n : Nat) (v : Link) : (s.setL n v).ns = s.ns := rfl
@[simp] theorem State.nclk_setL (s : State) (n : Nat) (v : Link) : (s.setL n v).nclk = s.nclk := rfl
@[simp] theorem State.active_setL (s : State) (n : Nat) (v : Link) (a : Nat) : (s.setL n v).active a = s.active a := rfl
@[simp] theorem State.packPart_setL (s : State) (n : Nat) (v : Link) (a : Nat) : (s.setL n v).packPart a = s.packPart a := rfl
@[simp] theorem State.partPacks_setL (s : State) (n : Nat) (v : Link) (a : Nat) : (s.setL n v).partPacks a = s.partPacks a := rfl
@[simp] theorem State.partStacks_setL (s : State) (n : Nat) (v : Link) (a : Nat) : (s.setL n v).partStacks a = s.partStacks a := rfl
@[simp] theorem State.tilePresent_setL (s : State) (n : Nat) (v : Link) (a : Nat) : (s.setL n v).tilePresent a = s.tilePresent a := rfl
@[simp] theorem State.packTiles_setL (s : State) (n : Nat) (v : Link) (a : Nat) : (s.setL n v).packTiles a = s.packTiles a := rfl
@[simp] theorem State.qHead_setL (s : State) (n : Nat) (v : Link) (r : QId) : (s.setL n v).qHead r = s.qHead r := rfl
@[simp] theorem State.qTail_setL (s : State) (n : Nat) (v : Link) (r : QId) : (s.setL n v).qTail r = s.qTail r := rfl
@[simp] theorem State.qPart_setL (s : State) (n : Nat) (v : Link) (r : QId) : (s.setL n v).qPart r = s.qPart r := rfl
@[simp] theorem State.inRange_setL (s : State) (n : Nat) (v : Link) (a c : Nat) : (s.setL n v).inRange a c = s.inRange a c := rfl
@[simp] theorem State.stackPart_setL (s : State) (n : Nat) (v : Link) (a : Nat) : (s.setL n v).stackPart a = s.stackPart a := rfl
@[simp] theorem State.inPartHbm_setL (s : State) (n : Nat) (v : Link) (a c d : Nat) : (s.setL n v).inPartHbm a c d = s.inPartHbm a c d := rfl
@[simp] theorem State.domain_setL (s : State) (n : Nat) (v : Link) (a : Nat) : (s.setL n v).domain a = s.domain a := rfl
@[simp] theorem State.hbmPlace_setL (s : State) (n : Nat) (v : Link) (a : Nat) : (s.setL n v).hbmPlace a = s.hbmPlace a := rfl
@[simp] theorem State.lkState_setL (s : State) (n : Nat) (v : Link) (a : Nat) : (s.setL n v).lkState a = s.lkState a := rfl
@[simp] theorem State.flows_setL (s : State) (n : Nat) (v : Link) (a : Nat) : (s.setL n v).flows a = s.flows a := rfl
@[simp] theorem State.coord_setL (s : State) (n : Nat) (v : Link) : (s.setL n v).coord = s.coord := rfl

/-! After an item is put out. -/

@[simp] theorem State.emit_ident (s : State) (o : Out) : (s.emit o).ident = s.ident := rfl
@[simp] theorem State.emit_kn (s : State) (o : Out) : (s.emit o).kn = s.kn := rfl
@[simp] theorem State.emit_shp (s : State) (o : Out) : (s.emit o).shp = s.shp := rfl
@[simp] theorem State.emit_pmus (s : State) (o : Out) : (s.emit o).pmus = s.pmus := rfl
@[simp] theorem State.emit_fns (s : State) (o : Out) : (s.emit o).fns = s.fns := rfl
@[simp] theorem State.emit_tsync (s : State) (o : Out) : (s.emit o).tsync = s.tsync := rfl
@[simp] theorem State.emit_parts (s : State) (o : Out) : (s.emit o).parts = s.parts := rfl
@[simp] theorem State.emit_regs (s : State) (o : Out) : (s.emit o).regs = s.regs := rfl
@[simp] theorem State.emit_mem (s : State) (o : Out) : (s.emit o).mem = s.mem := rfl
@[simp] theorem State.emit_herr (s : State) (o : Out) : (s.emit o).herr = s.herr := rfl
@[simp] theorem State.emit_tiles (s : State) (o : Out) : (s.emit o).tiles = s.tiles := rfl
@[simp] theorem State.emit_queues (s : State) (o : Out) : (s.emit o).queues = s.queues := rfl
@[simp] theorem State.emit_ctrs (s : State) (o : Out) : (s.emit o).ctrs = s.ctrs := rfl
@[simp] theorem State.emit_rets (s : State) (o : Out) : (s.emit o).rets = s.rets := rfl
@[simp] theorem State.emit_links (s : State) (o : Out) : (s.emit o).links = s.links := rfl
@[simp] theorem State.emit_rte (s : State) (o : Out) : (s.emit o).rte = s.rte := rfl
@[simp] theorem State.emit_xfers (s : State) (o : Out) : (s.emit o).xfers = s.xfers := rfl
@[simp] theorem State.emit_xferNext (s : State) (o : Out) : (s.emit o).xferNext = s.xferNext := rfl
@[simp] theorem State.emit_haccs (s : State) (o : Out) : (s.emit o).haccs = s.haccs := rfl
@[simp] theorem State.emit_haccNext (s : State) (o : Out) : (s.emit o).haccNext = s.haccNext := rfl
@[simp] theorem State.emit_hpieces (s : State) (o : Out) : (s.emit o).hpieces = s.hpieces := rfl
@[simp] theorem State.emit_hpieceNext (s : State) (o : Out) : (s.emit o).hpieceNext = s.hpieceNext := rfl
@[simp] theorem State.emit_lastLd (s : State) (o : Out) : (s.emit o).lastLd = s.lastLd := rfl
@[simp] theorem State.emit_telAt (s : State) (o : Out) : (s.emit o).telAt = s.telAt := rfl
@[simp] theorem State.emit_time (s : State) (o : Out) : (s.emit o).time = s.time := rfl
@[simp] theorem State.emit_clock (s : State) (o : Out) : (s.emit o).clock = s.clock := rfl
@[simp] theorem State.emit_aclk0 (s : State) (o : Out) : (s.emit o).aclk0 = s.aclk0 := rfl
@[simp] theorem State.emit_aclk1 (s : State) (o : Out) : (s.emit o).aclk1 = s.aclk1 := rfl
@[simp] theorem State.emit_bridges (s : State) (o : Out) : (s.emit o).bridges = s.bridges := rfl
@[simp] theorem State.emit_bridgeSp (s : State) (o : Out) : (s.emit o).bridgeSp = s.bridgeSp := rfl
@[simp] theorem State.emit_bridgeCh (s : State) (o : Out) : (s.emit o).bridgeCh = s.bridgeCh := rfl
@[simp] theorem State.emit_msixOpen (s : State) (o : Out) : (s.emit o).msixOpen = s.msixOpen := rfl
@[simp] theorem State.emit_msixTab (s : State) (o : Out) : (s.emit o).msixTab = s.msixTab := rfl
@[simp] theorem State.emit_msixPend (s : State) (o : Out) : (s.emit o).msixPend = s.msixPend := rfl
@[simp] theorem State.emit_scrubNow (s : State) (o : Out) : (s.emit o).scrubNow = s.scrubNow := rfl
@[simp] theorem State.emit_remapPtr (s : State) (o : Out) : (s.emit o).remapPtr = s.remapPtr := rfl
@[simp] theorem State.emit_refresh (s : State) (o : Out) : (s.emit o).refresh = s.refresh := rfl
@[simp] theorem State.emit_fresh (s : State) (o : Out) : (s.emit o).fresh = s.fresh := rfl
@[simp] theorem State.emit_out (s : State) (o : Out) : (s.emit o).out = s.out ++ [o] := rfl
@[simp] theorem State.emit_pending (s : State) (o : Out) : (s.emit o).pending = s.pending := rfl
@[simp] theorem State.rd_emit (s : State) (o : Out) (x : Nat) (g : Field) : (s.emit o).rd x g = s.rd x g := rfl
@[simp] theorem State.bit_emit (s : State) (o : Out) (x : Nat) (g : Field) : (s.emit o).bit x g = s.bit x g := rfl
@[simp] theorem State.queue_emit (s : State) (o : Out) (r : QId) : (s.emit o).queue r = s.queue r := rfl
@[simp] theorem State.tile_emit (s : State) (o : Out) (u : Nat) : (s.emit o).tile u = s.tile u := rfl
@[simp] theorem State.ctr_emit (s : State) (o : Out) (a c : Nat) : (s.emit o).ctr a c = s.ctr a c := rfl
@[simp] theorem State.ret_emit (s : State) (o : Out) (a c : Nat) : (s.emit o).ret a c = s.ret a c := rfl
@[simp] theorem State.part_emit (s : State) (o : Out) (a : Nat) : (s.emit o).part a = s.part a := rfl
@[simp] theorem State.link_emit (s : State) (o : Out) (a : Nat) : (s.emit o).link a = s.link a := rfl
@[simp] theorem State.ns_emit (s : State) (o : Out) : (s.emit o).ns = s.ns := rfl
@[simp] theorem State.nclk_emit (s : State) (o : Out) : (s.emit o).nclk = s.nclk := rfl
@[simp] theorem State.active_emit (s : State) (o : Out) (a : Nat) : (s.emit o).active a = s.active a := rfl
@[simp] theorem State.packPart_emit (s : State) (o : Out) (a : Nat) : (s.emit o).packPart a = s.packPart a := rfl
@[simp] theorem State.partPacks_emit (s : State) (o : Out) (a : Nat) : (s.emit o).partPacks a = s.partPacks a := rfl
@[simp] theorem State.partStacks_emit (s : State) (o : Out) (a : Nat) : (s.emit o).partStacks a = s.partStacks a := rfl
@[simp] theorem State.tilePresent_emit (s : State) (o : Out) (a : Nat) : (s.emit o).tilePresent a = s.tilePresent a := rfl
@[simp] theorem State.packTiles_emit (s : State) (o : Out) (a : Nat) : (s.emit o).packTiles a = s.packTiles a := rfl
@[simp] theorem State.qHead_emit (s : State) (o : Out) (r : QId) : (s.emit o).qHead r = s.qHead r := rfl
@[simp] theorem State.qTail_emit (s : State) (o : Out) (r : QId) : (s.emit o).qTail r = s.qTail r := rfl
@[simp] theorem State.qPart_emit (s : State) (o : Out) (r : QId) : (s.emit o).qPart r = s.qPart r := rfl
@[simp] theorem State.inRange_emit (s : State) (o : Out) (a c : Nat) : (s.emit o).inRange a c = s.inRange a c := rfl
@[simp] theorem State.stackPart_emit (s : State) (o : Out) (a : Nat) : (s.emit o).stackPart a = s.stackPart a := rfl
@[simp] theorem State.inPartHbm_emit (s : State) (o : Out) (a c d : Nat) : (s.emit o).inPartHbm a c d = s.inPartHbm a c d := rfl
@[simp] theorem State.domain_emit (s : State) (o : Out) (a : Nat) : (s.emit o).domain a = s.domain a := rfl
@[simp] theorem State.hbmPlace_emit (s : State) (o : Out) (a : Nat) : (s.emit o).hbmPlace a = s.hbmPlace a := rfl
@[simp] theorem State.lkState_emit (s : State) (o : Out) (a : Nat) : (s.emit o).lkState a = s.lkState a := rfl
@[simp] theorem State.flows_emit (s : State) (o : Out) (a : Nat) : (s.emit o).flows a = s.flows a := rfl
@[simp] theorem State.coord_emit (s : State) (o : Out) : (s.emit o).coord = s.coord := rfl

end Sys2Proof.Machine
end

