-- ==== Sys2Proof/Laws/Tables.lean ====
section
/-! SUPPORT. What the operations on tables, memory and registers do: reads after writes, and the canonical form of memory,
which every memory operation keeps. -/

namespace Sys2Proof.Machine

variable {α : Type}

/-! Tables. -/

@[simp] theorem tget_tset_same (t : Tbl α) (k : Nat) (v : α) : tget (tset t k v) k = some v := by
  induction t with
  | nil => simp [tset, tget]
  | cons x r ih =>
    obtain ⟨j, w⟩ := x
    simp only [tset]
    split
    · simp [tget]
    · split
      · simp [tget]
      · rename_i h; simp [tget, h, ih]

theorem tget_tset_ne (t : Tbl α) (k j : Nat) (v : α) (h : j ≠ k) : tget (tset t k v) j = tget t j := by
  induction t with
  | nil => simp [tset, tget, Ne.symm h]
  | cons x r ih =>
    obtain ⟨i, w⟩ := x
    simp only [tset]
    split
    · simp [tget, Ne.symm h]
    · split
      · rename_i hi; subst hi; simp [tget, Ne.symm h]
      · simp only [tget, ih]

@[simp] theorem tget_tdel_same (t : Tbl α) (k : Nat) : tget (tdel t k) k = none := by
  induction t with
  | nil => rfl
  | cons x r ih =>
    obtain ⟨i, w⟩ := x
    simp only [tdel]
    split
    · exact ih
    · rename_i hi; simp [tget, hi, ih]

theorem tget_tdel_ne (t : Tbl α) (k j : Nat) (h : j ≠ k) : tget (tdel t k) j = tget t j := by
  induction t with
  | nil => rfl
  | cons x r ih =>
    obtain ⟨i, w⟩ := x
    simp only [tdel]
    split
    · rename_i hi; subst hi; simp [tget, Ne.symm h, ih]
    · simp only [tget, ih]

@[simp] theorem tgetD_tset_same (t : Tbl α) (k : Nat) (v d : α) : tgetD (tset t k v) k d = v := by simp [tgetD]

theorem tgetD_tset_ne (t : Tbl α) (k j : Nat) (v d : α) (h : j ≠ k) : tgetD (tset t k v) j d = tgetD t j d := by
  simp [tgetD, tget_tset_ne t k j v h]

@[simp] theorem tgetD_tput_same [DecidableEq α] (t : Tbl α) (k : Nat) (d v : α) : tgetD (tput t k d v) k d = v := by
  unfold tput; split
  · rename_i h; simp [tgetD, h]
  · simp [tgetD]

theorem tget_tput_ne [DecidableEq α] (t : Tbl α) (k j : Nat) (d v : α) (h : j ≠ k) :
    tget (tput t k d v) j = tget t j := by
  unfold tput; split
  · exact tget_tdel_ne t k j h
  · exact tget_tset_ne t k j v h

theorem tgetD_tput_ne [DecidableEq α] (t : Tbl α) (k j : Nat) (d e v : α) (h : j ≠ k) :
    tgetD (tput t k d v) j e = tgetD t j e := by simp [tgetD, tget_tput_ne t k j d v h]

/-! Memory. -/

/-- Every listed address of a memory lies above a bound. -/
def memAbove (x : Nat) (m : List Host.Cell) : Prop := ∀ c ∈ m, x < c.1

theorem memWf_cons {a : Nat} {b : Byte} {r : List Host.Cell} :
    Memory.wf ((a, b) :: r) = true ↔ b ≠ memDefault ∧ memAbove a r ∧ Memory.wf r = true := by
  induction r generalizing a b with
  | nil => simp [Memory.wf, memAbove]
  | cons x r ih =>
    obtain ⟨a', b'⟩ := x
    have h := ih (a := a') (b := b')
    constructor
    · intro h1
      simp only [Memory.wf, Bool.and_eq_true, bne_iff_ne, decide_eq_true_eq] at h1
      obtain ⟨⟨h1, h2⟩, h3⟩ := h1
      refine ⟨h1, ?_, h3⟩
      intro c hc
      rcases List.mem_cons.1 hc with rfl | hc
      · exact h2
      · exact Nat.lt_trans h2 ((h.1 h3).2.1 c hc)
    · rintro ⟨h1, h2, h3⟩
      simp only [Memory.wf, Bool.and_eq_true, bne_iff_ne, decide_eq_true_eq]
      exact ⟨⟨h1, h2 (a', b') (by simp)⟩, h3⟩

theorem memAbove_tdel {x : Nat} {m : List Host.Cell} (k : Nat) (h : memAbove x m) : memAbove x (tdel m k) := by
  induction m with
  | nil => simpa [tdel] using h
  | cons c r ih =>
    obtain ⟨j, w⟩ := c
    have h' : memAbove x r := fun c hc => h c (by simp [hc])
    simp only [tdel]
    split
    · exact ih h'
    · intro c hc
      rcases List.mem_cons.1 hc with rfl | hc
      · exact h (j, w) (by simp)
      · exact ih h' c hc

theorem memAbove_tset {x : Nat} {m : List Host.Cell} (k : Nat) (b : Byte) (hx : x < k) (h : memAbove x m) :
    memAbove x (tset m k b) := by
  induction m with
  | nil => intro c hc; simp only [tset, List.mem_singleton] at hc; subst hc; exact hx
  | cons c r ih =>
    obtain ⟨j, w⟩ := c
    have h' : memAbove x r := fun c hc => h c (by simp [hc])
    simp only [tset]
    split
    · intro c hc
      rcases List.mem_cons.1 hc with rfl | hc
      · exact hx
      · exact h c hc
    · split
      · intro c hc
        rcases List.mem_cons.1 hc with rfl | hc
        · exact hx
        · exact h' c hc
      · intro c hc
        rcases List.mem_cons.1 hc with rfl | hc
        · exact h (j, w) (by simp)
        · exact ih h' c hc

theorem memWf_tdel {m : List Host.Cell} (k : Nat) (h : Memory.wf m = true) : Memory.wf (tdel m k) = true := by
  induction m with
  | nil => rfl
  | cons c r ih =>
    obtain ⟨j, w⟩ := c
    obtain ⟨h1, h2, h3⟩ := memWf_cons.1 h
    simp only [tdel]
    split
    · exact ih h3
    · exact memWf_cons.2 ⟨h1, memAbove_tdel k h2, ih h3⟩

theorem memWf_tset {m : List Host.Cell} (k : Nat) (b : Byte) (hb : b ≠ memDefault) (h : Memory.wf m = true) :
    Memory.wf (tset m k b) = true := by
  induction m with
  | nil => simp [tset, Memory.wf, hb]
  | cons c r ih =>
    obtain ⟨j, w⟩ := c
    obtain ⟨h1, h2, h3⟩ := memWf_cons.1 h
    simp only [tset]
    split
    · rename_i hk
      refine memWf_cons.2 ⟨hb, ?_, h⟩
      intro c hc
      rcases List.mem_cons.1 hc with rfl | hc
      · exact hk
      · exact Nat.lt_trans hk (h2 c hc)
    · rename_i hk
      split
      · rename_i hj
        subst hj
        exact memWf_cons.2 ⟨hb, h2, h3⟩
      · rename_i hj
        exact memWf_cons.2 ⟨h1, memAbove_tset k b (by omega) h2, ih h3⟩

/-- A write of one byte keeps the canonical form. -/
theorem memWf_mset {m : List Host.Cell} (a : Nat) (b : Byte) (h : Memory.wf m = true) : Memory.wf (mset m a b) = true := by
  unfold mset tput
  split
  · exact memWf_tdel a h
  · rename_i hb; exact memWf_tset a b hb h

/-- A write of bytes keeps the canonical form. -/
theorem memWf_mwrite {m : List Host.Cell} (a : Nat) (bs : List Nat) (h : Memory.wf m = true) :
    Memory.wf (mwrite m a bs) = true := by
  induction bs generalizing m a with
  | nil => exact h
  | cons b r ih => exact ih (a + 1) (memWf_mset a _ h)

/-- Memory with some of its cells taken away keeps the canonical form. -/
theorem memWf_filter {m : List Host.Cell} (p : Host.Cell → Bool) (h : Memory.wf m = true) : Memory.wf (m.filter p) = true := by
  induction m with
  | nil => rfl
  | cons c r ih =>
    obtain ⟨j, w⟩ := c
    obtain ⟨h1, h2, h3⟩ := memWf_cons.1 h
    simp only [List.filter]
    split
    · exact memWf_cons.2 ⟨h1, fun c hc => h2 c (List.mem_filter.1 hc).1, ih h3⟩
    · exact ih h3

/-- Zeroing a range keeps the canonical form. -/
theorem memWf_mzero {m : List Host.Cell} (a n : Nat) (h : Memory.wf m = true) : Memory.wf (mzero m a n) = true :=
  memWf_filter _ h

@[simp] theorem mget_mset_same (m : List Host.Cell) (a : Nat) (b : Byte) : mget (mset m a b) a = b := by
  simp [mget, mset]

theorem mget_mset_ne (m : List Host.Cell) (a x : Nat) (b : Byte) (h : x ≠ a) : mget (mset m a b) x = mget m x := by
  simp [mget, mset, tgetD_tput_ne m a x memDefault memDefault b h]

/-- A write leaves every byte outside its range. -/
theorem mget_mwrite_out (m : List Host.Cell) (a x : Nat) (bs : List Nat) (h : x < a ∨ a + bs.length ≤ x) :
    mget (mwrite m a bs) x = mget m x := by
  induction bs generalizing m a with
  | nil => rfl
  | cons b r ih =>
    simp only [mwrite]
    rw [ih _ _ (by simp only [List.length_cons] at h; omega),
      mget_mset_ne _ _ _ _ (by simp only [List.length_cons] at h; omega)]

/-- A write gives each byte of its range the byte written. -/
theorem mget_mwrite_in (m : List Host.Cell) (a i : Nat) (bs : List Nat) (h : i < bs.length) :
    mget (mwrite m a bs) (a + i) = BitVec.ofNat 8 (bs.getD i 0) := by
  induction bs generalizing m a i with
  | nil => simp at h
  | cons b r ih =>
    simp only [mwrite]
    cases i with
    | zero =>
      rw [mget_mwrite_out _ _ _ _ (by omega)]
      simp
    | succ j =>
      have := ih (mset m a (BitVec.ofNat 8 b)) (a + 1) j (by simpa using h)
      rw [show a + (j + 1) = a + 1 + j by omega, this]
      simp

theorem tget_filter (t : Tbl α) (p : Nat × α → Bool) (k : Nat) (h : ∀ v, p (k, v) = true) :
    tget (t.filter p) k = tget t k := by
  induction t with
  | nil => rfl
  | cons c r ih =>
    obtain ⟨j, w⟩ := c
    simp only [List.filter]
    split
    · simp only [tget, ih]
    · rename_i hp
      have : j ≠ k := by rintro rfl; simp [h] at hp
      simp [tget, this, ih]

/-- Reading a range gives the bytes at its addresses. -/
theorem mread_eq (m : List Host.Cell) (a n : Nat) : mread m a n = (List.range n).map (fun i => (mget m (a + i)).toNat) := by
  unfold mread
  apply List.map_congr_left
  intro i hi
  have hi := List.mem_range.1 hi
  simp only [mget, tgetD]
  rw [tget_filter]
  intro v
  simp only [Bool.and_eq_true, decide_eq_true_eq]
  omega

/-- Bytes that were written read back. -/
theorem mread_mwrite_same (m : List Host.Cell) (a : Nat) (bs : List Nat) (h : ∀ x ∈ bs, x < 256) :
    mread (mwrite m a bs) a bs.length = bs := by
  rw [mread_eq]
  apply List.ext_getElem
  · simp
  · intro i h1 h2
    have hx := h bs[i] (List.getElem_mem h2)
    simp [mget_mwrite_in m a i bs h2, Nat.mod_eq_of_lt hx, h2]

@[simp] theorem mread_length (m : List Host.Cell) (a n : Nat) : (mread m a n).length = n := by simp [mread]

/-! Registers. -/

/-- A field that was written reads as the value modulo its width. -/
@[simp] theorem State.rd_wr_same (s : State) (b : Nat) (f : Field) (v : Nat) : (s.wr b f v).rd b f = v % 2 ^ f.wid := by
  simp [State.rd, State.wr]

/-- A field holds as many bits as it is wide. -/
theorem State.rd_lt (s : State) (b : Nat) (f : Field) : s.rd b f < 2 ^ f.wid := Nat.mod_lt _ (Nat.two_pow_pos _)

@[simp] theorem State.rd_mod (s : State) (b : Nat) (f : Field) : s.rd b f % 2 ^ f.wid = s.rd b f :=
  Nat.mod_eq_of_lt (s.rd_lt b f)

/-- A write leaves every other field. -/
theorem State.rd_wr_ne (s : State) (b x : Nat) (f g : Field) (v : Nat) (h : fkey x g ≠ fkey b f) :
    (s.wr b f v).rd x g = s.rd x g := by
  simp only [State.rd, State.wr]
  rw [tgetD_tput_ne _ _ _ _ _ _ h]

/-- A write leaves every other key. -/
theorem State.tget_wr_ne (s : State) (b : Nat) (f : Field) (v k : Nat) (h : k ≠ fkey b f) :
    tget (s.wr b f v).regs k = tget s.regs k := tget_tput_ne _ _ _ _ _ h

/-- `bump` touches no field of the state but the registers. -/
theorem State.bump_eq (s : State) (b : Nat) (c w : Field) (n : Nat) :
    s.bump b c w n = { s with regs := (s.bump b c w n).regs } := by
  unfold State.bump; dsimp only; split <;> rfl

/-! Units. -/

@[simp] theorem State.queue_setQ_same (s : State) (q : QId) (v : Queue) : (s.setQ q v).queue q = v := by simp [State.queue]
@[simp] theorem State.tile_setT_same (s : State) (t : Nat) (v : Tile) : (s.setT t v).tile t = v := by simp [State.tile]
@[simp] theorem State.ctr_setC_same (s : State) (p i : Nat) (v : Ctr) : (s.setC p i v).ctr p i = v := by simp [State.ctr]
@[simp] theorem State.ret_setR_same (s : State) (p n : Nat) (v : Ret) : (s.setR p n v).ret p n = v := by simp [State.ret]
@[simp] theorem State.part_setP_same (s : State) (k : Nat) (v : Part) : (s.setP k v).part k = v := by simp [State.part]
@[simp] theorem State.link_setL_same (s : State) (n : Nat) (v : Link) : (s.setL n v).link n = v := by simp [State.link]

/-- Two queues have the same number only when they are the same queue. -/
theorem qKey_inj {q r : QId} (h : qKey q = qKey r) : q = r := by
  cases q <;> cases r <;> simp only [qKey] at h <;> first | (congr 1; omega) | omega

theorem State.queue_setQ_ne (s : State) (q r : QId) (v : Queue) (h : r ≠ q) : (s.setQ q v).queue r = s.queue r := by
  simp only [State.queue, State.setQ_queues]
  exact tgetD_tset_ne _ _ _ _ _ (fun e => h (qKey_inj e))

theorem State.tile_setT_ne (s : State) (t u : Nat) (v : Tile) (h : u ≠ t) : (s.setT t v).tile u = s.tile u := by
  simp only [State.tile, State.setT_tiles]; exact tgetD_tset_ne _ _ _ _ _ h

theorem State.ctr_setC_ne (s : State) (p i a c : Nat) (v : Ctr) (h : a * 1024 + c ≠ p * 1024 + i) :
    (s.setC p i v).ctr a c = s.ctr a c := by
  simp only [State.ctr, State.setC_ctrs]; exact tgetD_tset_ne _ _ _ _ _ h

theorem State.part_setP_ne (s : State) (k j : Nat) (v : Part) (h : j ≠ k) : (s.setP k v).part j = s.part j := by
  simp only [State.part, State.setP_parts]; exact tgetD_tset_ne _ _ _ _ _ h

theorem State.link_setL_ne (s : State) (n j : Nat) (v : Link) (h : j ≠ n) : (s.setL n v).link j = s.link j := by
  simp only [State.link, State.setL_links]; exact tgetD_tset_ne _ _ _ _ _ h

/-! Folds over lists. -/

/-- A relation that is kept by each step of `forEach` holds from its start to its end. -/
theorem forEach_rel {α : Type} (R : State → State → Prop) (refl : ∀ s, R s s) (trans : ∀ a b c, R a b → R b c → R a c)
    (l : List α) (f : State → α → State) (h : ∀ s a, R s (f s a)) (s : State) : R s (forEach l s f) := by
  unfold forEach
  induction l generalizing s with
  | nil => exact refl s
  | cons a r ih => exact trans _ _ _ (h s a) (ih (f s a))

end Sys2Proof.Machine
end

