-- ==== Sys2Proof/Laws/Regs.lean ====
section
/-! SUPPORT. Register writes that commands make: where the written register stands, which fields its aligned unit holds, and
that a write that passes its checks acts on exactly those fields. -/

set_option linter.unusedSimpArgs false

namespace Sys2Proof.Machine

/-- A write that passes its checks acts on the fields of its unit. -/
theorem regWrite_unit (s : State) (c : Src) (a size v : Nat) (code : Boot) (b : Blk) (hs : s.regStatus c a size true = 0)
    (hb : regBuf a = none) (hk : blkAt a = some b) :
    regWrite s c a size v code = (unitWrite (wakeReg s b true) b a size v code, 0) := by
  simp [regWrite, hs, hb, hk]

/-- A command that writes a register completes with OK when the write passes its checks. -/
theorem regCmd_unit (s : State) (c : Src) (a size v : Nat) (code : Boot) (b : Blk) (hs : s.regStatus (askSrc c) a size true = 0)
    (hb : regBuf a = none) (hk : blkAt a = some b) :
    regCmd s c a size v code = (unitWrite (wakeReg s b true) b a size v code).emit (.compl 0 []) := by
  simp [regCmd, regWrite_unit s (askSrc c) a size v code b hs hb hk]

/-- A command whose write fails its checks completes with the status and changes nothing else. -/
theorem regCmd_fail (s : State) (c : Src) (a size v : Nat) (code : Boot) (hs : s.regStatus (askSrc c) a size true ≠ 0) :
    regCmd s c a size v code = s.emit (.compl (s.regStatus (askSrc c) a size true) []) := by
  simp [regCmd, regWrite, hs]

/-- Nothing wakes in a partition none of whose packs is gated. -/
theorem wakePack_awake (s : State) (p : Nat) (h : ∀ k, s.packPart p = some k → (s.partPacks k).any s.packGated = false) :
    wakePack s p = s := by
  unfold wakePack
  split
  · rename_i k hk
    simp [h k hk]
  · rfl

/-! The rows of R31 that hold the register windows. -/

theorem rowOf_4 (a : Nat) (h : 0xc100000000 ≤ a) (h' : a < 0xc100900000) : rowOf a = 4 := by
  unfold rowOf
  simp (disch := omega) only [if_neg, if_pos]

theorem rowOf_5 (a : Nat) (h : 0xc101000000 ≤ a) (h' : a < 0xc101400000) : rowOf a = 5 := by
  unfold rowOf
  simp (disch := omega) only [if_neg, if_pos]

theorem rowOf_6 (a : Nat) (h : 0xc102000000 ≤ a) (h' : a < 0xc1020c0000) : rowOf a = 6 := by
  unfold rowOf
  simp (disch := omega) only [if_neg, if_pos]

theorem rowOf_7 (a : Nat) (h : 0xc102100000 ≤ a) (h' : a < 0xc102180000) : rowOf a = 7 := by
  unfold rowOf
  simp (disch := omega) only [if_neg, if_pos]

theorem rowOf_9 (a : Nat) (h : 0xc102300000 ≤ a) (h' : a < 0xc102310000) : rowOf a = 9 := by
  unfold rowOf
  simp (disch := omega) only [if_neg, if_pos]

theorem rowOf_10 (a : Nat) (h : 0xc102400000 ≤ a) (h' : a < 0xc102410000) : rowOf a = 10 := by
  unfold rowOf
  simp (disch := omega) only [if_neg, if_pos]

theorem rowOf_11 (a : Nat) (h : 0xc102500000 ≤ a) (h' : a < 0xc102520000) : rowOf a = 11 := by
  unfold rowOf
  simp (disch := omega) only [if_neg, if_pos]

theorem rowOf_12 (a : Nat) (h : 0xc102600000 ≤ a) (h' : a < 0xc102601000) : rowOf a = 12 := by
  unfold rowOf
  simp (disch := omega) only [if_neg, if_pos]

theorem rowOf_14 (a : Nat) (h : 0xc102700000 ≤ a) (h' : a < 0xc102800000) : rowOf a = 14 := by
  unfold rowOf
  simp (disch := omega) only [if_neg, if_pos]

theorem rowOf_15 (a : Nat) (h : 0xc102800000 ≤ a) (h' : a < 0xc102810000) : rowOf a = 15 := by
  unfold rowOf
  iterate 27 rw [if_neg (by omega)]
  rw [if_pos (by omega)]

/-- Outside Kennel's buffer, the staging windows and the device event buffer no buffer stands in register space. -/
theorem regBuf_none (a : Nat) (h1 : ¬ (knlBuf ≤ a ∧ a < knlBase + 0x1000))
    (h2 : ¬ (shapeBase + 0x8000 ≤ a ∧ a < shapeBase + 0x10000))
    (h3 : ¬ (devEventBase ≤ a ∧ a < devEventBase + 0x4000)) : regBuf a = none := by
  unfold regBuf
  rw [if_neg h1, if_neg h2, if_neg h3]

theorem rowOf_tile (t o : Nat) (h : t < 144) (ho : o < 0x10000) : rowOf (tileBase t + o) = 4 :=
  rowOf_4 _ (by simp only [tileBase]; omega) (by simp only [tileBase]; omega)

theorem rowOf_pack (p o : Nat) (h : p < 16) (ho : o < 0x40000) : rowOf (packBase p + o) = 5 :=
  rowOf_5 _ (by simp only [packBase]; omega) (by simp only [packBase]; omega)

theorem rowOf_hbmc (x o : Nat) (h : x < 12) (ho : o < 0x10000) : rowOf (hbmcBase x + o) = 6 :=
  rowOf_6 _ (by simp only [hbmcBase]; omega) (by simp only [hbmcBase]; omega)

theorem rowOf_lnk (n o : Nat) (h : n < 8) (ho : o < 0x10000) : rowOf (lnkBase n + o) = 7 :=
  rowOf_7 _ (by simp only [lnkBase]; omega) (by simp only [lnkBase]; omega)

theorem rowOf_shapeP (k o : Nat) (h : k < 8) (ho : o < 0x400) : rowOf (shapePBase k + o) = 9 :=
  rowOf_9 _ (by simp only [shapePBase, shapeBase]; omega) (by simp only [shapePBase, shapeBase]; omega)

theorem rowOf_cxlp (o : Nat) (ho : o < 0x10000) : rowOf (cxlpBase + o) = 10 :=
  rowOf_10 _ (by simp only [cxlpBase]; omega) (by simp only [cxlpBase]; omega)

theorem rowOf_pmu (d o : Nat) (h : d < 2) (ho : o < 0x10000) : rowOf (pmuBase d + o) = 11 :=
  rowOf_11 _ (by simp only [pmuBase]; omega) (by simp only [pmuBase]; omega)

theorem rowOf_shp (o : Nat) (ho : o < 0x1000) : rowOf (shpBase + o) = 12 :=
  rowOf_12 _ (by simp only [shpBase]; omega) (by simp only [shpBase]; omega)

theorem rowOf_trc (o : Nat) (ho : o < 0x10000) : rowOf (trcBase + o) = 14 :=
  rowOf_14 _ (by simp only [trcBase]; omega) (by simp only [trcBase]; omega)

theorem rowOf_cen (k o : Nat) (h : k < 8) (ho : o < 0x1000) : rowOf (cenBase k + o) = 15 :=
  rowOf_15 _ (by simp only [cenBase]; omega) (by simp only [cenBase]; omega)

theorem tile_div (t x : Nat) (h : x < 0x10000) : (tileBase t + x - 0xC100000000) / 0x10000 = t := by unfold tileBase; omega

theorem tile_mod (t x : Nat) (h : x < 0x10000) : (tileBase t + x) % 0x10000 = x := by unfold tileBase; omega

/-! The units that commands write. -/

theorem unit_qctrl (q : QId)  (h : okQueue q = true) :
    regBuf (qBase q) = none ∧ blkAt (qBase q) = some (Blk.queue q) ∧
      unitFields (Blk.queue q) (qBase q) =
        [SEQ_QCTRL.LOC, SEQ_QCTRL.RING_LOG2, SEQ_QCTRL.EN, SEQ_QCTRL.HALT, SEQ_QCTRL.RESUME, SEQ_QCTRL.SKIP] := by
  cases q with
  | cq t =>
    have h : t < 144 := by simpa [okQueue, okTile, okPack] using h
    refine ⟨?_, ?_, ?_⟩
    · show regBuf (tileBase t + 0x1000) = none
      exact regBuf_none _ (by unfold tileBase knlBuf knlBase; omega) (by unfold tileBase shapeBase; omega) (by unfold tileBase devEventBase; omega)
    · show blkAt (tileBase t + 0x1000) = _
      have e1 : (tileBase t + 0x1000 - 0xC100000000) / 0x10000 = t := by simp only [tileBase, packBase, hbmcBase, lnkBase, shapePBase, shapeBase, cenBase, trcBase, shpBase, pmuBase, cxlpBase, cxlpLBase, agBase, syncBase, collBase]; omega
      have e2 : (tileBase t + 0x1000) % 0x10000 = 0x1000 := by simp only [tileBase, packBase, hbmcBase, lnkBase, shapePBase, shapeBase, cenBase, trcBase, shpBase, pmuBase, cxlpBase, cxlpLBase, agBase, syncBase, collBase]; omega
      simp only [blkAt, rowOf_tile t 0x1000 h (by omega), e1, e2]
      try rfl
    · show unitFields _ (tileBase t + 0x1000) = _
      have e : (tileBase t + 0x1000) % 0x100 = 0x0 := by simp only [tileBase, packBase, hbmcBase, lnkBase, shapePBase, shapeBase, cenBase, trcBase, shpBase, pmuBase, cxlpBase, cxlpLBase, agBase, syncBase, collBase]; omega
      simp only [unitFields, blkOff, e]
      rfl
  | mq t =>
    have h : t < 144 := by simpa [okQueue, okTile, okPack] using h
    refine ⟨?_, ?_, ?_⟩
    · show regBuf (tileBase t + 0x1100) = none
      exact regBuf_none _ (by unfold tileBase knlBuf knlBase; omega) (by unfold tileBase shapeBase; omega) (by unfold tileBase devEventBase; omega)
    · show blkAt (tileBase t + 0x1100) = _
      have e1 : (tileBase t + 0x1100 - 0xC100000000) / 0x10000 = t := by simp only [tileBase, packBase, hbmcBase, lnkBase, shapePBase, shapeBase, cenBase, trcBase, shpBase, pmuBase, cxlpBase, cxlpLBase, agBase, syncBase, collBase]; omega
      have e2 : (tileBase t + 0x1100) % 0x10000 = 0x1100 := by simp only [tileBase, packBase, hbmcBase, lnkBase, shapePBase, shapeBase, cenBase, trcBase, shpBase, pmuBase, cxlpBase, cxlpLBase, agBase, syncBase, collBase]; omega
      simp only [blkAt, rowOf_tile t 0x1100 h (by omega), e1, e2]
      try rfl
    · show unitFields _ (tileBase t + 0x1100) = _
      have e : (tileBase t + 0x1100) % 0x100 = 0x0 := by simp only [tileBase, packBase, hbmcBase, lnkBase, shapePBase, shapeBase, cenBase, trcBase, shpBase, pmuBase, cxlpBase, cxlpLBase, agBase, syncBase, collBase]; omega
      simp only [unitFields, blkOff, e]
      rfl
  | gq p =>
    have h : p < 16 := by simpa [okQueue, okTile, okPack] using h
    refine ⟨?_, ?_, ?_⟩
    · show regBuf (packBase p + 0x0) = none
      exact regBuf_none _ (by unfold packBase knlBuf knlBase; omega) (by unfold packBase shapeBase; omega) (by unfold packBase devEventBase; omega)
    · show blkAt (packBase p + 0x0) = _
      have e1 : (packBase p + 0x0 - 0xC101000000) / 0x40000 = p := by simp only [tileBase, packBase, hbmcBase, lnkBase, shapePBase, shapeBase, cenBase, trcBase, shpBase, pmuBase, cxlpBase, cxlpLBase, agBase, syncBase, collBase]; omega
      have e2 : (packBase p + 0x0 - 0xC101000000) % 0x40000 = 0x0 := by simp only [tileBase, packBase, hbmcBase, lnkBase, shapePBase, shapeBase, cenBase, trcBase, shpBase, pmuBase, cxlpBase, cxlpLBase, agBase, syncBase, collBase]; omega
      simp only [blkAt, rowOf_pack p 0x0 h (by omega), e1, e2]
      try rfl
    · show unitFields _ (packBase p + 0x0) = _
      have e : (packBase p + 0x0) % 0x100 = 0x0 := by simp only [tileBase, packBase, hbmcBase, lnkBase, shapePBase, shapeBase, cenBase, trcBase, shpBase, pmuBase, cxlpBase, cxlpLBase, agBase, syncBase, collBase]; omega
      simp only [unitFields, blkOff, e]
      rfl
  | pmq p =>
    have h : p < 16 := by simpa [okQueue, okTile, okPack] using h
    refine ⟨?_, ?_, ?_⟩
    · show regBuf (packBase p + 0x100) = none
      exact regBuf_none _ (by unfold packBase knlBuf knlBase; omega) (by unfold packBase shapeBase; omega) (by unfold packBase devEventBase; omega)
    · show blkAt (packBase p + 0x100) = _
      have e1 : (packBase p + 0x100 - 0xC101000000) / 0x40000 = p := by simp only [tileBase, packBase, hbmcBase, lnkBase, shapePBase, shapeBase, cenBase, trcBase, shpBase, pmuBase, cxlpBase, cxlpLBase, agBase, syncBase, collBase]; omega
      have e2 : (packBase p + 0x100 - 0xC101000000) % 0x40000 = 0x100 := by simp only [tileBase, packBase, hbmcBase, lnkBase, shapePBase, shapeBase, cenBase, trcBase, shpBase, pmuBase, cxlpBase, cxlpLBase, agBase, syncBase, collBase]; omega
      simp only [blkAt, rowOf_pack p 0x100 h (by omega), e1, e2]
      try rfl
    · show unitFields _ (packBase p + 0x100) = _
      have e : (packBase p + 0x100) % 0x100 = 0x0 := by simp only [tileBase, packBase, hbmcBase, lnkBase, shapePBase, shapeBase, cenBase, trcBase, shpBase, pmuBase, cxlpBase, cxlpLBase, agBase, syncBase, collBase]; omega
      simp only [unitFields, blkOff, e]
      rfl
theorem unit_qtail (q : QId)  (h : okQueue q = true) :
    regBuf (qBase q + 0x10) = none ∧ blkAt (qBase q + 0x10) = some (Blk.queue q) ∧
      unitFields (Blk.queue q) (qBase q + 0x10) =
        [SEQ_QTAIL.TAIL] := by
  cases q with
  | cq t =>
    have h : t < 144 := by simpa [okQueue, okTile, okPack] using h
    refine ⟨?_, ?_, ?_⟩
    · show regBuf (tileBase t + 0x1010) = none
      exact regBuf_none _ (by unfold tileBase knlBuf knlBase; omega) (by unfold tileBase shapeBase; omega) (by unfold tileBase devEventBase; omega)
    · show blkAt (tileBase t + 0x1010) = _
      have e1 : (tileBase t + 0x1010 - 0xC100000000) / 0x10000 = t := by simp only [tileBase, packBase, hbmcBase, lnkBase, shapePBase, shapeBase, cenBase, trcBase, shpBase, pmuBase, cxlpBase, cxlpLBase, agBase, syncBase, collBase]; omega
      have e2 : (tileBase t + 0x1010) % 0x10000 = 0x1010 := by simp only [tileBase, packBase, hbmcBase, lnkBase, shapePBase, shapeBase, cenBase, trcBase, shpBase, pmuBase, cxlpBase, cxlpLBase, agBase, syncBase, collBase]; omega
      simp only [blkAt, rowOf_tile t 0x1010 h (by omega), e1, e2]
      try rfl
    · show unitFields _ (tileBase t + 0x1010) = _
      have e : (tileBase t + 0x1010) % 0x100 = 0x10 := by simp only [tileBase, packBase, hbmcBase, lnkBase, shapePBase, shapeBase, cenBase, trcBase, shpBase, pmuBase, cxlpBase, cxlpLBase, agBase, syncBase, collBase]; omega
      simp only [unitFields, blkOff, e]
      rfl
  | mq t =>
    have h : t < 144 := by simpa [okQueue, okTile, okPack] using h
    refine ⟨?_, ?_, ?_⟩
    · show regBuf (tileBase t + 0x1110) = none
      exact regBuf_none _ (by unfold tileBase knlBuf knlBase; omega) (by unfold tileBase shapeBase; omega) (by unfold tileBase devEventBase; omega)
    · show blkAt (tileBase t + 0x1110) = _
      have e1 : (tileBase t + 0x1110 - 0xC100000000) / 0x10000 = t := by simp only [tileBase, packBase, hbmcBase, lnkBase, shapePBase, shapeBase, cenBase, trcBase, shpBase, pmuBase, cxlpBase, cxlpLBase, agBase, syncBase, collBase]; omega
      have e2 : (tileBase t + 0x1110) % 0x10000 = 0x1110 := by simp only [tileBase, packBase, hbmcBase, lnkBase, shapePBase, shapeBase, cenBase, trcBase, shpBase, pmuBase, cxlpBase, cxlpLBase, agBase, syncBase, collBase]; omega
      simp only [blkAt, rowOf_tile t 0x1110 h (by omega), e1, e2]
      try rfl
    · show unitFields _ (tileBase t + 0x1110) = _
      have e : (tileBase t + 0x1110) % 0x100 = 0x10 := by simp only [tileBase, packBase, hbmcBase, lnkBase, shapePBase, shapeBase, cenBase, trcBase, shpBase, pmuBase, cxlpBase, cxlpLBase, agBase, syncBase, collBase]; omega
      simp only [unitFields, blkOff, e]
      rfl
  | gq p =>
    have h : p < 16 := by simpa [okQueue, okTile, okPack] using h
    refine ⟨?_, ?_, ?_⟩
    · show regBuf (packBase p + 0x10) = none
      exact regBuf_none _ (by unfold packBase knlBuf knlBase; omega) (by unfold packBase shapeBase; omega) (by unfold packBase devEventBase; omega)
    · show blkAt (packBase p + 0x10) = _
      have e1 : (packBase p + 0x10 - 0xC101000000) / 0x40000 = p := by simp only [tileBase, packBase, hbmcBase, lnkBase, shapePBase, shapeBase, cenBase, trcBase, shpBase, pmuBase, cxlpBase, cxlpLBase, agBase, syncBase, collBase]; omega
      have e2 : (packBase p + 0x10 - 0xC101000000) % 0x40000 = 0x10 := by simp only [tileBase, packBase, hbmcBase, lnkBase, shapePBase, shapeBase, cenBase, trcBase, shpBase, pmuBase, cxlpBase, cxlpLBase, agBase, syncBase, collBase]; omega
      simp only [blkAt, rowOf_pack p 0x10 h (by omega), e1, e2]
      try rfl
    · show unitFields _ (packBase p + 0x10) = _
      have e : (packBase p + 0x10) % 0x100 = 0x10 := by simp only [tileBase, packBase, hbmcBase, lnkBase, shapePBase, shapeBase, cenBase, trcBase, shpBase, pmuBase, cxlpBase, cxlpLBase, agBase, syncBase, collBase]; omega
      simp only [unitFields, blkOff, e]
      rfl
  | pmq p =>
    have h : p < 16 := by simpa [okQueue, okTile, okPack] using h
    refine ⟨?_, ?_, ?_⟩
    · show regBuf (packBase p + 0x110) = none
      exact regBuf_none _ (by unfold packBase knlBuf knlBase; omega) (by unfold packBase shapeBase; omega) (by unfold packBase devEventBase; omega)
    · show blkAt (packBase p + 0x110) = _
      have e1 : (packBase p + 0x110 - 0xC101000000) / 0x40000 = p := by simp only [tileBase, packBase, hbmcBase, lnkBase, shapePBase, shapeBase, cenBase, trcBase, shpBase, pmuBase, cxlpBase, cxlpLBase, agBase, syncBase, collBase]; omega
      have e2 : (packBase p + 0x110 - 0xC101000000) % 0x40000 = 0x110 := by simp only [tileBase, packBase, hbmcBase, lnkBase, shapePBase, shapeBase, cenBase, trcBase, shpBase, pmuBase, cxlpBase, cxlpLBase, agBase, syncBase, collBase]; omega
      simp only [blkAt, rowOf_pack p 0x110 h (by omega), e1, e2]
      try rfl
    · show unitFields _ (packBase p + 0x110) = _
      have e : (packBase p + 0x110) % 0x100 = 0x10 := by simp only [tileBase, packBase, hbmcBase, lnkBase, shapePBase, shapeBase, cenBase, trcBase, shpBase, pmuBase, cxlpBase, cxlpLBase, agBase, syncBase, collBase]; omega
      simp only [unitFields, blkOff, e]
      rfl
theorem unit_tctrl (t : Nat)  (h : okTile t = true) :
    regBuf (tileBase t + 0x1800) = none ∧ blkAt (tileBase t + 0x1800) = some (Blk.tileSeq t) ∧
      unitFields (Blk.tileSeq t) (tileBase t + 0x1800) =
        [SEQ_TCTRL.PREEMPT, SEQ_TCTRL.RESTORE] := by
  have h : t < 144 := by simpa [okTile, okPack, okStack, okPort, okPart] using h
  refine ⟨?_, ?_, ?_⟩
  · show regBuf (tileBase t + 0x1800) = none
    exact regBuf_none _ (by unfold tileBase knlBuf knlBase; omega) (by unfold tileBase shapeBase; omega) (by unfold tileBase devEventBase; omega)
  · show blkAt (tileBase t + 0x1800) = _
    have e1 : (tileBase t + 0x1800 - 0xC100000000) / 0x10000 = t := by simp only [tileBase, packBase, hbmcBase, lnkBase, shapePBase, shapeBase, cenBase, trcBase, shpBase, pmuBase, cxlpBase, cxlpLBase, agBase, syncBase, collBase]; omega
    have e2 : (tileBase t + 0x1800) % 0x10000 = 0x1800 := by simp only [tileBase, packBase, hbmcBase, lnkBase, shapePBase, shapeBase, cenBase, trcBase, shpBase, pmuBase, cxlpBase, cxlpLBase, agBase, syncBase, collBase]; omega
    simp only [blkAt, rowOf_tile t 0x1800 h (by omega), e1, e2]
    try rfl
  · show unitFields _ (tileBase t + 0x1800) = _
    have e : (tileBase t + 0x1800) % 0x10000 = 0x1800 := by simp only [tileBase, packBase, hbmcBase, lnkBase, shapePBase, shapeBase, cenBase, trcBase, shpBase, pmuBase, cxlpBase, cxlpLBase, agBase, syncBase, collBase]; omega
    simp only [unitFields, blkOff, e]
    rfl
theorem unit_pctrl (p : Nat)  (h : okPack p = true) :
    regBuf (packBase p + 0x800) = none ∧ blkAt (packBase p + 0x800) = some (Blk.packSeq p) ∧
      unitFields (Blk.packSeq p) (packBase p + 0x800) =
        [SEQ_PCTRL.PREEMPT, SEQ_PCTRL.RESUME] := by
  have h : p < 16 := by simpa [okTile, okPack, okStack, okPort, okPart] using h
  refine ⟨?_, ?_, ?_⟩
  · show regBuf (packBase p + 0x800) = none
    exact regBuf_none _ (by unfold packBase knlBuf knlBase; omega) (by unfold packBase shapeBase; omega) (by unfold packBase devEventBase; omega)
  · show blkAt (packBase p + 0x800) = _
    have e1 : (packBase p + 0x800 - 0xC101000000) / 0x40000 = p := by simp only [tileBase, packBase, hbmcBase, lnkBase, shapePBase, shapeBase, cenBase, trcBase, shpBase, pmuBase, cxlpBase, cxlpLBase, agBase, syncBase, collBase]; omega
    have e2 : (packBase p + 0x800 - 0xC101000000) % 0x40000 = 0x800 := by simp only [tileBase, packBase, hbmcBase, lnkBase, shapePBase, shapeBase, cenBase, trcBase, shpBase, pmuBase, cxlpBase, cxlpLBase, agBase, syncBase, collBase]; omega
    simp only [blkAt, rowOf_pack p 0x800 h (by omega), e1, e2]
    try rfl
  · show unitFields _ (packBase p + 0x800) = _
    have e : (packBase p + 0x800) % 0x1000 = 0x800 := by simp only [tileBase, packBase, hbmcBase, lnkBase, shapePBase, shapeBase, cenBase, trcBase, shpBase, pmuBase, cxlpBase, cxlpLBase, agBase, syncBase, collBase]; omega
    simp only [unitFields, blkOff, e]
    rfl
theorem unit_agfifo (t n : Nat)  (h : okTile t = true ∧ n < 3) :
    regBuf (agBase t n + 0x50) = none ∧ blkAt (agBase t n + 0x50) = some (Blk.ag t n) ∧
      unitFields (Blk.ag t n) (agBase t n + 0x50) =
        [AG_FIFO.BASE] := by
  obtain ⟨h, hn⟩ := h
  have h : t < 144 := by simpa [okTile] using h
  have e0 : agBase t n + 0x50 = tileBase t + (0x2050 + 0x100 * n) := by unfold agBase; omega
  refine ⟨?_, ?_, ?_⟩
  · exact regBuf_none _ (by rw [e0]; unfold tileBase knlBuf knlBase; omega) (by rw [e0]; unfold tileBase shapeBase; omega)
      (by rw [e0]; unfold tileBase devEventBase; omega)
  · have e3 : (0x2050 + 0x100 * n - 0x2000) / 0x100 = n := by
      rw [show 0x2050 + 0x100 * n - 0x2000 = 0x50 + 0x100 * n by omega]; omega
    have ho : 0x2050 + 0x100 * n < 0x10000 := by omega
    have e1 : (tileBase t + (0x2050 + 0x100 * n) - 0xC100000000) / 0x10000 = t := tile_div t _ ho
    have e2 : (tileBase t + (0x2050 + 0x100 * n)) % 0x10000 = 0x2050 + 0x100 * n := tile_mod t _ ho
    rw [e0]
    simp only [blkAt, rowOf_tile t (0x2050 + 0x100 * n) h ho, e1, e2]
    unfold tileBlk
    iterate 8 rw [if_neg (by omega)]
    rw [if_pos (by omega), e3]
  · have e : (agBase t n + 0x50) % 0x100 = 0x50 := by unfold agBase tileBase; omega
    simp only [unitFields, blkOff, e]
    rfl
theorem unit_syncctrl (p : Nat)  (h : okPack p = true) :
    regBuf (syncBase p + 8) = none ∧ blkAt (syncBase p + 8) = some (Blk.sync p) ∧
      unitFields (Blk.sync p) (syncBase p + 8) =
        [SYNC_CTRL.OVF_EVT, SYNC_CTRL.HOWL] := by
  have h : p < 16 := by simpa [okTile, okPack, okStack, okPort, okPart] using h
  refine ⟨?_, ?_, ?_⟩
  · show regBuf (packBase p + 0x2008) = none
    exact regBuf_none _ (by unfold packBase knlBuf knlBase; omega) (by unfold packBase shapeBase; omega) (by unfold packBase devEventBase; omega)
  · show blkAt (packBase p + 0x2008) = _
    have e1 : (packBase p + 0x2008 - 0xC101000000) / 0x40000 = p := by simp only [tileBase, packBase, hbmcBase, lnkBase, shapePBase, shapeBase, cenBase, trcBase, shpBase, pmuBase, cxlpBase, cxlpLBase, agBase, syncBase, collBase]; omega
    have e2 : (packBase p + 0x2008 - 0xC101000000) % 0x40000 = 0x2008 := by simp only [tileBase, packBase, hbmcBase, lnkBase, shapePBase, shapeBase, cenBase, trcBase, shpBase, pmuBase, cxlpBase, cxlpLBase, agBase, syncBase, collBase]; omega
    simp only [blkAt, rowOf_pack p 0x2008 h (by omega), e1, e2]
    try rfl
  · show unitFields _ (packBase p + 0x2008) = _
    have e : (packBase p + 0x2008) % 0x100 = 8 := by simp only [tileBase, packBase, hbmcBase, lnkBase, shapePBase, shapeBase, cenBase, trcBase, shpBase, pmuBase, cxlpBase, cxlpLBase, agBase, syncBase, collBase]; omega
    simp only [unitFields, blkOff, e]
    rfl
theorem unit_scrub (x : Nat)  (h : okStack x = true) :
    regBuf (hbmcBase x + 0x20) = none ∧ blkAt (hbmcBase x + 0x20) = some (Blk.hbmc x) ∧
      unitFields (Blk.hbmc x) (hbmcBase x + 0x20) =
        [HBMC_SCRUB_CTRL.EN, HBMC_SCRUB_CTRL.PASS_MIN, HBMC_SCRUB_CTRL.NOW] := by
  have h : x < 12 := by simpa [okTile, okPack, okStack, okPort, okPart] using h
  refine ⟨?_, ?_, ?_⟩
  · show regBuf (hbmcBase x + 0x20) = none
    exact regBuf_none _ (by unfold hbmcBase knlBuf knlBase; omega) (by unfold hbmcBase shapeBase; omega) (by unfold hbmcBase devEventBase; omega)
  · show blkAt (hbmcBase x + 0x20) = _
    have e1 : (hbmcBase x + 0x20 - 0xC102000000) / 0x10000 = x := by simp only [tileBase, packBase, hbmcBase, lnkBase, shapePBase, shapeBase, cenBase, trcBase, shpBase, pmuBase, cxlpBase, cxlpLBase, agBase, syncBase, collBase]; omega
    simp only [blkAt, rowOf_hbmc x 0x20 h (by omega), e1]
    try rfl
  · show unitFields _ (hbmcBase x + 0x20) = _
    have e : (hbmcBase x + 0x20) % 0x10000 = 0x20 := by simp only [tileBase, packBase, hbmcBase, lnkBase, shapePBase, shapeBase, cenBase, trcBase, shpBase, pmuBase, cxlpBase, cxlpLBase, agBase, syncBase, collBase]; omega
    simp only [unitFields, blkOff, e]
    rfl
theorem unit_remap (x c : Nat)  (h : okStack x = true ∧ c < 32) :
    regBuf (hbmcBase x + 0x2000 + 8 * c) = none ∧ blkAt (hbmcBase x + 0x2000 + 8 * c) = some (Blk.hbmc x) ∧
      unitFields (Blk.hbmc x) (hbmcBase x + 0x2000 + 8 * c) =
        [HBMC_REMAP.PIN c, HBMC_REMAP.REQ c, HBMC_REMAP.REFUSED c, HBMC_REMAP.SPIN c, HBMC_REMAP.SPARED c, HBMC_REMAP.BUSY c, HBMC_REMAP.MPIN0 c, HBMC_REMAP.MPIN1 c, HBMC_REMAP.MARKED c] := by
  obtain ⟨h, hc⟩ := h
  have h : x < 12 := by simpa [okStack] using h
  refine ⟨?_, ?_, ?_⟩
  · exact regBuf_none _ (by unfold hbmcBase knlBuf knlBase; omega) (by unfold hbmcBase shapeBase; omega)
      (by unfold hbmcBase devEventBase; omega)
  · have e1 : (hbmcBase x + (0x2000 + 8 * c) - 0xC102000000) / 0x10000 = x := by unfold hbmcBase; omega
    rw [show hbmcBase x + 0x2000 + 8 * c = hbmcBase x + (0x2000 + 8 * c) by omega]
    simp only [blkAt, rowOf_hbmc x (0x2000 + 8 * c) h (by omega), e1]
  · have e : (hbmcBase x + 0x2000 + 8 * c) % 0x10000 = 0x2000 + 8 * c := by unfold hbmcBase; omega
    have e1 : (0x2000 + 8 * c) / 8 * 8 = 0x2000 + 8 * c := by omega
    have e2 : (0x2000 + 8 * c - 0x2000) / 8 = c := by omega
    simp [unitFields, blkOff, e, e1, blkFields, hbmcFields, e2, hc, HBMC_REMAP.PIN, HBMC_REMAP.REQ, HBMC_REMAP.REFUSED,
      HBMC_REMAP.SPIN, HBMC_REMAP.SPARED, HBMC_REMAP.BUSY, HBMC_REMAP.MPIN0, HBMC_REMAP.MPIN1, HBMC_REMAP.MARKED]
theorem unit_lnkctrl (n : Nat)  (h : okPort n = true) :
    regBuf (lnkBase n + 0x18) = none ∧ blkAt (lnkBase n + 0x18) = some (Blk.lnk n) ∧
      unitFields (Blk.lnk n) (lnkBase n + 0x18) =
        [LNK_CTRL.AUTO_RESTORE, LNK_CTRL.IMG_EVT, LNK_CTRL.PAD_NCLK, LNK_CTRL.RETRAIN, LNK_CTRL.DISABLE] := by
  have h : n < 8 := by simpa [okTile, okPack, okStack, okPort, okPart] using h
  refine ⟨?_, ?_, ?_⟩
  · show regBuf (lnkBase n + 0x18) = none
    exact regBuf_none _ (by unfold lnkBase knlBuf knlBase; omega) (by unfold lnkBase shapeBase; omega) (by unfold lnkBase devEventBase; omega)
  · show blkAt (lnkBase n + 0x18) = _
    have e1 : (lnkBase n + 0x18 - 0xC102100000) / 0x10000 = n := by simp only [tileBase, packBase, hbmcBase, lnkBase, shapePBase, shapeBase, cenBase, trcBase, shpBase, pmuBase, cxlpBase, cxlpLBase, agBase, syncBase, collBase]; omega
    simp only [blkAt, rowOf_lnk n 0x18 h (by omega), e1]
    try rfl
  · show unitFields _ (lnkBase n + 0x18) = _
    have e : (lnkBase n + 0x18) % 0x10000 = 0x18 := by simp only [tileBase, packBase, hbmcBase, lnkBase, shapePBase, shapeBase, cenBase, trcBase, shpBase, pmuBase, cxlpBase, cxlpLBase, agBase, syncBase, collBase]; omega
    simp only [unitFields, blkOff, e]
    rfl
theorem unit_rekey (n : Nat)  (h : okPort n = true) :
    regBuf (lnkBase n + 0x40) = none ∧ blkAt (lnkBase n + 0x40) = some (Blk.lnk n) ∧
      unitFields (Blk.lnk n) (lnkBase n + 0x40) =
        [LNK_REKEY.THR_LOG2, LNK_REKEY.REQ, LNK_REKEY.BUSY, LNK_REKEY.STALL, LNK_REKEY.COUNT] := by
  have h : n < 8 := by simpa [okTile, okPack, okStack, okPort, okPart] using h
  refine ⟨?_, ?_, ?_⟩
  · show regBuf (lnkBase n + 0x40) = none
    exact regBuf_none _ (by unfold lnkBase knlBuf knlBase; omega) (by unfold lnkBase shapeBase; omega) (by unfold lnkBase devEventBase; omega)
  · show blkAt (lnkBase n + 0x40) = _
    have e1 : (lnkBase n + 0x40 - 0xC102100000) / 0x10000 = n := by simp only [tileBase, packBase, hbmcBase, lnkBase, shapePBase, shapeBase, cenBase, trcBase, shpBase, pmuBase, cxlpBase, cxlpLBase, agBase, syncBase, collBase]; omega
    simp only [blkAt, rowOf_lnk n 0x40 h (by omega), e1]
    try rfl
  · show unitFields _ (lnkBase n + 0x40) = _
    have e : (lnkBase n + 0x40) % 0x10000 = 0x40 := by simp only [tileBase, packBase, hbmcBase, lnkBase, shapePBase, shapeBase, cenBase, trcBase, shpBase, pmuBase, cxlpBase, cxlpLBase, agBase, syncBase, collBase]; omega
    simp only [unitFields, blkOff, e]
    rfl
theorem unit_collctrl (p : Nat)  (h : okPack p = true) :
    regBuf (collBase p) = none ∧ blkAt (collBase p) = some (Blk.coll p) ∧
      unitFields (Blk.coll p) (collBase p) =
        [COLL_CTRL.RETRY_US, COLL_CTRL.ERR_EVT, COLL_CTRL.ABORT] := by
  have h : p < 16 := by simpa [okTile, okPack, okStack, okPort, okPart] using h
  refine ⟨?_, ?_, ?_⟩
  · show regBuf (packBase p + 0x3000) = none
    exact regBuf_none _ (by unfold packBase knlBuf knlBase; omega) (by unfold packBase shapeBase; omega) (by unfold packBase devEventBase; omega)
  · show blkAt (packBase p + 0x3000) = _
    have e1 : (packBase p + 0x3000 - 0xC101000000) / 0x40000 = p := by simp only [tileBase, packBase, hbmcBase, lnkBase, shapePBase, shapeBase, cenBase, trcBase, shpBase, pmuBase, cxlpBase, cxlpLBase, agBase, syncBase, collBase]; omega
    have e2 : (packBase p + 0x3000 - 0xC101000000) % 0x40000 = 0x3000 := by simp only [tileBase, packBase, hbmcBase, lnkBase, shapePBase, shapeBase, cenBase, trcBase, shpBase, pmuBase, cxlpBase, cxlpLBase, agBase, syncBase, collBase]; omega
    simp only [blkAt, rowOf_pack p 0x3000 h (by omega), e1, e2]
    try rfl
  · show unitFields _ (packBase p + 0x3000) = _
    have e : (packBase p + 0x3000) % 0x1000 = 0 := by simp only [tileBase, packBase, hbmcBase, lnkBase, shapePBase, shapeBase, cenBase, trcBase, shpBase, pmuBase, cxlpBase, cxlpLBase, agBase, syncBase, collBase]; omega
    simp only [unitFields, blkOff, e]
    rfl
theorem unit_ovctrl (k : Nat)  (h : okPart k = true) :
    regBuf (shapePBase k + 0x10) = none ∧ blkAt (shapePBase k + 0x10) = some (Blk.shapeP k) ∧
      unitFields (Blk.shapeP k) (shapePBase k + 0x10) =
        [SHAPE_OVCTRL.ID, SHAPE_OVCTRL.LOAD, SHAPE_OVCTRL.DROP] := by
  have h : k < 8 := by simpa [okTile, okPack, okStack, okPort, okPart] using h
  refine ⟨?_, ?_, ?_⟩
  · exact regBuf_none _ (by unfold shapePBase shapeBase knlBuf knlBase; omega) (by unfold shapePBase shapeBase; omega)
      (by unfold shapePBase shapeBase devEventBase; omega)
  · have e1 : (shapePBase k + 0x10) % 0x10000 = 0x1010 + 0x400 * k := by unfold shapePBase shapeBase; omega
    have e2 : (0x1010 + 0x400 * k - 0x1000) / 0x400 = k := by omega
    simp only [blkAt, rowOf_shapeP k 0x10 h (by omega), e1, e2]
    rw [if_neg (by omega), if_pos (by omega)]
  · have e : (shapePBase k + 0x10) % 0x400 = 0x10 := by unfold shapePBase shapeBase; omega
    simp only [unitFields, blkOff, e]
    rfl
theorem unit_cenctrl (k : Nat)  (h : okPart k = true) :
    regBuf (cenBase k) = none ∧ blkAt (cenBase k) = some (Blk.cen k) ∧
      unitFields (Blk.cen k) (cenBase k) =
        [CEN_PCTRL.CMODE, CEN_PCTRL.FPDETAIL, CEN_PCTRL.NFEN, CEN_PCTRL.NFPH, CEN_PCTRL.NFCTR, CEN_PCTRL.CLOSE, CEN_PCTRL.NFCLR] := by
  have h : k < 8 := by simpa [okTile, okPack, okStack, okPort, okPart] using h
  refine ⟨?_, ?_, ?_⟩
  · exact regBuf_none _ (by unfold cenBase knlBuf knlBase; omega) (by unfold cenBase shapeBase; omega)
      (by unfold cenBase devEventBase; omega)
  · have e1 : cenBase k % 0x10000 = 0x1000 * k := by unfold cenBase; omega
    have e2 : 0x1000 * k / 0x1000 = k := by omega
    have e3 : rowOf (cenBase k) = 15 := rowOf_cen k 0 h (by omega)
    simp only [blkAt, e3, e1, e2]
    exact if_pos (by omega)
  · have e : cenBase k % 0x1000 = 0 := by unfold cenBase; omega
    simp only [unitFields, blkOff, e]
    rfl
theorem unit_trcctrl  :
    regBuf (trcBase + 8) = none ∧ blkAt (trcBase + 8) = some (Blk.trc) ∧
      unitFields (Blk.trc) (trcBase + 8) =
        [TRC_TCTRL.MASTER, TRC_TCTRL.PARENT, TRC_TCTRL.PVALID, TRC_TCTRL.RELOCK] := by
  refine ⟨by decide, by decide, by decide⟩

theorem unit_trctset  :
    regBuf (trcBase + 0x10) = none ∧ blkAt (trcBase + 0x10) = some (Blk.trc) ∧
      unitFields (Blk.trc) (trcBase + 0x10) =
        [TRC_TSET.NS] := by
  refine ⟨by decide, by decide, by decide⟩

theorem unit_shpcmd  :
    regBuf (shpBase + 8) = none ∧ blkAt (shpBase + 8) = some (Blk.shp) ∧
      unitFields (Blk.shp) (shpBase + 8) =
        [SHP_CMD.OP, SHP_CMD.GO, SHP_CMD.RESULT] := by
  refine ⟨by decide, by decide, by decide⟩

theorem unit_shphbeat  :
    regBuf (shpBase + 0x38) = none ∧ blkAt (shpBase + 0x38) = some (Blk.shp) ∧
      unitFields (Blk.shp) (shpBase + 0x38) =
        [SHP_HBEAT.VALUE] := by
  refine ⟨by decide, by decide, by decide⟩

theorem unit_shpscfg (i : Nat)  (h : i < 96) :
    regBuf (shpBase + 0x400 + 0x10 * i) = none ∧ blkAt (shpBase + 0x400 + 0x10 * i) = some (Blk.shp) ∧
      unitFields (Blk.shp) (shpBase + 0x400 + 0x10 * i) =
        [SHP_SCFG.RATE i, SHP_SCFG.NLOG2 i, SHP_SCFG.DIR i, SHP_SCFG.ACT i, SHP_SCFG.TLVL i, SHP_SCFG.HI i, SHP_SCFG.LO i] := by
  refine ⟨?_, ?_, ?_⟩
  · exact regBuf_none _ (by unfold shpBase knlBuf knlBase; omega) (by unfold shpBase shapeBase; omega)
      (by unfold shpBase devEventBase; omega)
  · rw [show shpBase + 0x400 + 0x10 * i = shpBase + (0x400 + 0x10 * i) by omega]
    simp only [blkAt, rowOf_shp (0x400 + 0x10 * i) (by omega)]
  · have e : (shpBase + 0x400 + 0x10 * i) % 0x1000 = 0x400 + 0x10 * i := by unfold shpBase; omega
    have e1 : (0x400 + 0x10 * i) / 8 * 8 = 0x400 + 0x10 * i := by omega
    have e2 : (0x400 + 0x10 * i - 0x400) / 0x10 = i := by omega
    have e3 : (0x400 + 0x10 * i + 8) / 8 * 8 ≠ 0x400 + 0x10 * i := by omega
    have l : ¬ 96 ≤ i := by omega
    simp [unitFields, blkOff, e, e1, blkFields, shpFields, e2, l, SHP_SCFG.RATE, SHP_SCFG.NLOG2, SHP_SCFG.DIR, SHP_SCFG.ACT,
      SHP_SCFG.TLVL, SHP_SCFG.HI, SHP_SCFG.LO, SHP_SVAL.SAMPLE, SHP_SVAL.AVG, SHP_SVAL.ALARM]
    try omega
theorem unit_throt (d : Nat)  (h : d < 2) :
    regBuf (pmuBase d + 8) = none ∧ blkAt (pmuBase d + 8) = some (Blk.pmu d) ∧
      unitFields (Blk.pmu d) (pmuBase d + 8) =
        [PMU_THROT.LEVEL, PMU_THROT.SHPREQ, PMU_THROT.PWRREQ, PMU_THROT.HOSTCAP] := by
  refine ⟨?_, ?_, ?_⟩
  · show regBuf (pmuBase d + 8) = none
    exact regBuf_none _ (by unfold pmuBase knlBuf knlBase; omega) (by unfold pmuBase shapeBase; omega) (by unfold pmuBase devEventBase; omega)
  · show blkAt (pmuBase d + 8) = _
    have e1 : (pmuBase d + 8 - 0xC102500000) / 0x10000 = d := by simp only [tileBase, packBase, hbmcBase, lnkBase, shapePBase, shapeBase, cenBase, trcBase, shpBase, pmuBase, cxlpBase, cxlpLBase, agBase, syncBase, collBase]; omega
    simp only [blkAt, rowOf_pmu d 8 h (by omega), e1]
    try rfl
  · show unitFields _ (pmuBase d + 8) = _
    have e : (pmuBase d + 8) % 0x10000 = 8 := by simp only [tileBase, packBase, hbmcBase, lnkBase, shapePBase, shapeBase, cenBase, trcBase, shpBase, pmuBase, cxlpBase, cxlpLBase, agBase, syncBase, collBase]; omega
    simp only [unitFields, blkOff, e]
    rfl
theorem unit_telcmd  :
    regBuf (cxlpBase + 0x40) = none ∧ blkAt (cxlpBase + 0x40) = some (Blk.cxlp) ∧
      unitFields (Blk.cxlp) (cxlpBase + 0x40) =
        [CXLP_TELCMD.EP, CXLP_TELCMD.PORT, CXLP_TELCMD.VC, CXLP_TELCMD.BANK, CXLP_TELCMD.DONE, CXLP_TELCMD.ERR, CXLP_TELCMD.GO] := by
  refine ⟨by decide, by decide, by decide⟩

theorem unit_ldctrl (n : Nat)  (h : n < 8) :
    regBuf (cxlpLBase n + 8) = none ∧ blkAt (cxlpLBase n + 8) = some (Blk.cxlpL n) ∧
      unitFields (Blk.cxlpL n) (cxlpLBase n + 8) =
        [CXLP_LDCTRL.IDE_REQ] := by
  refine ⟨?_, ?_, ?_⟩
  · exact regBuf_none _ (by unfold cxlpLBase cxlpBase knlBuf knlBase; omega) (by unfold cxlpLBase cxlpBase shapeBase; omega)
      (by unfold cxlpLBase cxlpBase devEventBase; omega)
  · have e0 : cxlpLBase n + 8 = cxlpBase + (0x1008 + 0x800 * n) := by unfold cxlpLBase; omega
    have e1 : (cxlpBase + (0x1008 + 0x800 * n)) % 0x10000 = 0x1008 + 0x800 * n := by unfold cxlpBase; omega
    have e2 : (0x1008 + 0x800 * n - 0x1000) / 0x800 = n := by omega
    rw [e0]
    simp only [blkAt, rowOf_cxlp (0x1008 + 0x800 * n) (by omega), e1, e2]
    rw [if_neg (by omega), if_pos (by omega)]
  · have e : (cxlpLBase n + 8) % 0x800 = 8 := by unfold cxlpLBase cxlpBase; omega
    simp only [unitFields, blkOff, e]
    rfl
end Sys2Proof.Machine
end

