-- ==== Sys2Proof/Laws/Access.lean ====
section
/-! SUPPORT. Accesses to one scratch window or HBM slice as single parts: what a read answers and what a write does; the
length of a save record. -/

namespace Sys2Proof.Machine

theorem rowOf_scratch (t a : Nat) (ht : t < 144) (h1 : scratchBase t ≤ a) (h2 : a < scratchBase t + 0x400000) : rowOf a = 1 := by
  unfold scratchBase at *
  simp only [rowOf, show ¬ a < 0xC000000000 by omega, show a < 0xC024000000 by omega, if_true, if_false]

theorem scratch_div (t a : Nat) (h1 : scratchBase t ≤ a) (h2 : a < scratchBase t + 0x400000) :
    (a - 0xC000000000) / 0x400000 = t := by
  unfold scratchBase at *
  omega

/-- A range that ends within its part is one part. -/
theorem partsOf_one (row fuel a n : Nat) (hn : 0 < n) (h : a % partSize row + n ≤ partSize row) :
    partsOf row (fuel + 2) a n = [(a, n)] := by
  have hm : min n (partSize row - a % partSize row) = n := by omega
  simp [partsOf, hm, Nat.pos_iff_ne_zero.mp hn]

theorem badRange_scratch (t a n : Nat) (ht : t < 144) (hn : 0 < n) (h1 : scratchBase t ≤ a)
    (h2 : a + n ≤ scratchBase t + 0x400000) : badRange a n = false := by
  have r1 := rowOf_scratch t a ht h1 (by omega)
  have r2 := rowOf_scratch t (a + n - 1) ht (by omega) (by omega)
  have h3 : ¬ 2 ^ 40 < a + n := by
    unfold scratchBase at *
    omega
  simp [badRange, r1, r2]
  omega

theorem scratch_mod (t a n : Nat) (h1 : scratchBase t ≤ a) (h2 : a + n ≤ scratchBase t + 0x400000) :
    a % partSize 1 + n ≤ partSize 1 := by
  unfold scratchBase at *
  simp only [partSize]
  omega

/-- The parts of a read within one scratch window (R35, R534, R554): none when its status refuses it, or the one part. -/
theorem memParts_scratch (s : State) (c : Src) (t a n : Nat) (ht : t < 144) (hn : 0 < n) (h1 : scratchBase t ≤ a)
    (h2 : a + n ≤ scratchBase t + 0x400000) :
    memParts s c none a n = if s.partStatus c a n = 0 then (wakePack s (packOf t), 0, [(0, mread s.mem a n)])
      else (s, s.partStatus c a n, []) := by
  have hr := rowOf_scratch t a ht h1 (by omega)
  have hd := scratch_div t a h1 (by omega)
  have hp := partsOf_one 1 198 a n hn (scratch_mod t a n h1 h2)
  simp only [memParts, Nat.pos_iff_ne_zero.mp hn, if_false, badRange_scratch t a n ht hn h1 h2, hr, hp,
    List.foldl_cons, List.foldl_nil, State.unitStatus, partRead, hd, Bool.false_eq_true]
  by_cases h : s.partStatus c a n = 0 <;> simp [h, firstErr]

/-- A read within one scratch window (R35, R534): refused with the part's status, or the bytes that stand there. -/
theorem memRead_scratch (s : State) (c : Src) (t a n : Nat) (ht : t < 144) (hn : 0 < n) (h1 : scratchBase t ≤ a)
    (h2 : a + n ≤ scratchBase t + 0x400000) :
    memRead s c a n = if s.partStatus c a n = 0 then (wakePack s (packOf t), 0, mread s.mem a n)
      else (s, s.partStatus c a n, []) := by
  simp only [memRead, memReadU, memParts_scratch s c t a n ht hn h1 h2]
  split <;> simp_all [bufBytes]

/-- A write within one scratch window (R35, R534): refused with the part's status, or the bytes are stored and the
window's NF check runs. -/
theorem memWrite_scratch (s : State) (c : Src) (t a : Nat) (bs : List Nat) (ht : t < 144) (hn : 0 < bs.length)
    (h1 : scratchBase t ≤ a) (h2 : a + bs.length ≤ scratchBase t + 0x400000) :
    memWrite s c a bs = if s.partStatus c a bs.length = 0 then partWrite s c a bs else (s, s.partStatus c a bs.length) := by
  have hr := rowOf_scratch t a ht h1 (by omega)
  have hd := scratch_div t a h1 (by omega)
  have hp := partsOf_one 1 198 a bs.length hn (scratch_mod t a bs.length h1 h2)
  simp only [memWrite, memWriteU, Nat.pos_iff_ne_zero.mp hn, if_false, badRange_scratch t a bs.length ht hn h1 h2, hr, hp,
    List.foldl_cons, List.foldl_nil, State.unitStatus, Bool.false_eq_true, Nat.sub_self, List.drop_zero, List.take_length]
  by_cases h : s.partStatus c a bs.length = 0
  · simp [h, firstErr]
  · simp [h, firstErr]

/-- A write of a scratch window that passes its checks succeeds. -/
theorem partWrite_scratch_ok (s : State) (c : Src) (t a : Nat) (bs : List Nat) (ht : t < 144) (h1 : scratchBase t ≤ a)
    (h2 : a < scratchBase t + 0x400000) : (partWrite s c a bs).2 = 0 := by
  simp [partWrite, rowOf_scratch t a ht h1 h2]

/-- The sectors of a range of whole sectors: each is one whole sector of it. -/
theorem sectorsOf_whole (fuel a n : Nat) (ha : a % 32 = 0) (hn : n % 32 = 0) :
    ∀ p ∈ sectorsOf fuel a n, p.2 = 32 ∧ a ≤ p.1 ∧ p.1 + 32 ≤ a + n := by
  induction fuel generalizing a n with
  | zero => simp [sectorsOf]
  | succ fuel ih =>
    intro p hp
    unfold sectorsOf at hp
    split at hp
    · cases hp
    · rename_i h0
      have hm : min n (32 - a % 32) = 32 := by omega
      rw [hm] at hp
      rcases List.mem_cons.mp hp with rfl | hp
      · exact ⟨rfl, Nat.le_refl _, by dsimp only; omega⟩
      · obtain ⟨h1, h2, h3⟩ := ih (a + 32) (n - 32) (by omega) (by omega) p hp
        exact ⟨h1, by omega, by omega⟩

/-- A write of whole sectors of an HBM slice that passes its checks succeeds (R255). -/
theorem partWrite_hbm_ok (s : State) (c : Src) (a : Nat) (bs : List Nat) (h : rowOf a = 0) (ha : a % 32 = 0)
    (hn : bs.length % 32 = 0) : (partWrite s c a bs).2 = 0 := by
  unfold partWrite
  rw [h]
  dsimp only
  have hw := sectorsOf_whole (bs.length / 32 + 2) a bs.length ha hn
  revert hw
  generalize sectorsOf (bs.length / 32 + 2) a bs.length = l
  suffices H : ∀ (l : List (Nat × Nat)) (x : State × Nat), x.2 = 0 →
      (∀ p ∈ l, p.2 = 32 ∧ a ≤ p.1 ∧ p.1 + 32 ≤ a + bs.length) → (l.foldl (fun (x : State × Nat) p =>
        let (s, st) := sectorWrite x.1 p.1 ((bs.drop (p.1 - a)).take p.2)
        (if st = 0 then (match s.ownerOf p.1 with | some k => nfHook s k p.1 p.2 | none => s) else s, firstErr x.2 st)) x).2 = 0 by
    exact fun hw => H l (s, 0) rfl hw
  intro l
  induction l with
  | nil => exact fun x hx _ => hx
  | cons p l ih =>
    intro x hx hl
    obtain ⟨h1, h2, h3⟩ := hl p List.mem_cons_self
    refine ih _ ?_ (fun q hq => hl q (List.mem_cons_of_mem _ hq))
    have hlen : ((bs.drop (p.1 - a)).take p.2).length = 32 := by
      simp only [List.length_take, List.length_drop]
      omega
    simp [sectorWrite, hlen, hx, firstErr]

/-- A write of an HBM slice changes memory and its error words alone while no partition watches non-finite words (R255, R424). -/
theorem partWrite_hbm_frame (s : State) (c : Src) (a : Nat) (bs : List Nat) (h : rowOf a = 0) (ha : a % 32 = 0)
    (hn : bs.length % 32 = 0) (hq : ∀ k, s.bit (cenBase k) CEN_PCTRL.NFEN = false) :
    ∃ m e, (partWrite s c a bs).1 = { s with mem := m, herr := e } := by
  unfold partWrite
  rw [h]
  dsimp only
  have hw := sectorsOf_whole (bs.length / 32 + 2) a bs.length ha hn
  revert hw
  generalize sectorsOf (bs.length / 32 + 2) a bs.length = l
  suffices H : ∀ (l : List (Nat × Nat)) (x : State × Nat), (∃ m e, x.1 = { s with mem := m, herr := e }) →
      (∀ p ∈ l, p.2 = 32 ∧ a ≤ p.1 ∧ p.1 + 32 ≤ a + bs.length) → ∃ m e, (l.foldl (fun (x : State × Nat) p =>
        let (s, st) := sectorWrite x.1 p.1 ((bs.drop (p.1 - a)).take p.2)
        (if st = 0 then (match s.ownerOf p.1 with | some k => nfHook s k p.1 p.2 | none => s) else s, firstErr x.2 st)) x).1 =
          { s with mem := m, herr := e } by
    exact fun hw => H l (s, 0) ⟨s.mem, s.herr, rfl⟩ hw
  intro l
  induction l with
  | nil => exact fun x hx _ => hx
  | cons p l ih =>
    rintro ⟨x, st⟩ ⟨m, e, hx⟩ hl
    dsimp only at hx
    subst hx
    obtain ⟨h1, h2, h3⟩ := hl p List.mem_cons_self
    refine ih _ ?_ (fun q hq => hl q (List.mem_cons_of_mem _ hq))
    have hlen : ((bs.drop (p.1 - a)).take p.2).length = 32 := by
      simp only [List.length_take, List.length_drop]
      omega
    have hk : ∀ (t : State) k b n, t.regs = s.regs → nfHook t k b n = t := by
      intro t k b n ht
      have : t.bit (cenBase k) CEN_PCTRL.NFEN = false := by
        rw [← hq k]
        simp only [State.bit, State.rd, ht]
      simp [nfHook, State.nfHit, this]
    simp only [sectorWrite, hlen, if_true]
    split
    · exact ⟨_, _, hk _ _ _ _ rfl⟩
    · exact ⟨_, _, rfl⟩

/-- A write within one HBM slice whose checks refuse it answers their status; one of whole sectors that passes succeeds. -/
theorem memWrite_hbm (s : State) (c : Src) (a : Nat) (bs : List Nat) (hn : 0 < bs.length) (hb : badRange a bs.length = false)
    (h : rowOf a = 0) (hm : a % 2 ^ 36 + bs.length ≤ 2 ^ 36) (ha : a % 32 = 0) (hw : bs.length % 32 = 0) :
    (memWrite s c a bs).2 = s.partStatus c a bs.length := by
  have hp := partsOf_one 0 198 a bs.length hn hm
  simp only [memWrite, memWriteU, Nat.pos_iff_ne_zero.mp hn, if_false, hb, h, hp,
    List.foldl_cons, List.foldl_nil, State.unitStatus, Bool.false_eq_true, Nat.sub_self, List.drop_zero, List.take_length]
  by_cases hs : s.partStatus c a bs.length = 0
  · simp [hs, firstErr, partWrite_hbm_ok s c a bs h ha hw]
  · simp [hs, firstErr]

/-- The same write leaves the status of every access as it was while no partition watches non-finite words. -/
theorem memWrite_hbm_status (s : State) (c : Src) (a : Nat) (bs : List Nat) (hn : 0 < bs.length)
    (hb : badRange a bs.length = false) (h : rowOf a = 0) (hm : a % 2 ^ 36 + bs.length ≤ 2 ^ 36) (ha : a % 32 = 0)
    (hw : bs.length % 32 = 0) (hq : ∀ k, s.bit (cenBase k) CEN_PCTRL.NFEN = false) (c' : Src) (b n : Nat) :
    (memWrite s c a bs).1.partStatus c' b n = s.partStatus c' b n := by
  have hp := partsOf_one 0 198 a bs.length hn hm
  obtain ⟨m, e, hf⟩ := partWrite_hbm_frame s c a bs h ha hw hq
  simp only [memWrite, memWriteU, Nat.pos_iff_ne_zero.mp hn, if_false, hb, h, hp,
    List.foldl_cons, List.foldl_nil, State.unitStatus, Bool.false_eq_true, Nat.sub_self, List.drop_zero, List.take_length]
  by_cases hs : s.partStatus c a bs.length = 0
  · simp only [hs, ne_eq, not_true_eq_false, if_false, hf]
    rfl
  · simp [hs]

/-- The status of an access within one pack buffer does not depend on partitions' records or queues. -/
theorem partStatus_buf (s : State) (c : Src) (a n : Nat) (ps : Tbl Part) (qs : Tbl Queue) (h : rowOf a = 2)
    (hc : c = .unit 0) : ({ s with parts := ps, queues := qs } : State).partStatus c a n = s.partStatus c a n := by
  subst hc
  simp only [State.partStatus, State.ownerOf, h, State.mayReach]
  rfl

/-- The status of an access does not depend on what memory holds. -/
theorem partStatus_mem (s : State) (m : List Host.Cell) (c : Src) (a n : Nat) :
    ({ s with mem := m } : State).partStatus c a n = s.partStatus c a n := rfl

/-- A read within one pack buffer (R35, R534). -/
theorem memRead_buf (s : State) (c : Src) (a n : Nat) (hn : 0 < n) (hb : badRange a n = false) (h : rowOf a = 2)
    (hm : a % partSize 2 + n ≤ partSize 2) (hs : s.partStatus c a n = 0) :
    memRead s c a n = (s, 0, mread s.mem a n) := by
  simp [memRead, memReadU, memParts, bufBytes, Nat.pos_iff_ne_zero.mp hn, hb, h, partsOf_one 2 198 a n hn hm, State.unitStatus, partRead, hs,
    firstErr]

@[simp] theorem leBytes_length (n x : Nat) : (leBytes n x).length = n := by
  induction n generalizing x with
  | zero => rfl
  | succ n ih => simp [leBytes, ih]

@[simp] theorem bankBytes_length (n k : Nat) (t : Tbl Entry) : (bankBytes n k t).length = 16 * n := by
  induction n generalizing k t with
  | zero => rfl
  | succ n ih =>
    cases t with
    | nil => simp [bankBytes, ih]; omega
    | cons e r =>
      simp only [bankBytes]
      split <;> simp [ih, entryBytes] <;> omega

@[simp] theorem padTo_length (n : Nat) (bs : List Nat) : (padTo n bs).length = max n bs.length := by
  simp [padTo]
  omega

@[simp] theorem packFields_length (s : State) (n base : Nat) (fs : List Field) : (packFields s n base fs).length = n := by
  simp [packFields]

/-- A save record without an interrupted command has the size of R160. -/
theorem saveRecord_length (s : State) (t : Nat) (cen : Census) (h : ∀ n, n < 3 → (agSection s t n).length = 1024) :
    (saveRecord s t none cen).length = recordSize := by
  have e : List.range 3 = [0, 1, 2] := rfl
  have e4 : List.range 4 = [0, 1, 2, 3] := rfl
  unfold saveRecord
  simp only [e, e4, List.foldr_cons, List.foldr_nil, List.length_append, leBytes_length, padTo_length, packFields_length,
    List.length_replicate, List.length_nil, bankBytes_length, h 0 (by omega), h 1 (by omega), h 2 (by omega), recordSize]
  rfl

end Sys2Proof.Machine
end

