-- ==== Sys2Proof/Laws/Events.lean ====
section
/-! SUPPORT. What raising an event can do: it touches the event and MSI-X registers, the ring and buffer memory with its
error patterns, pending vectors and the output, where a ring's record covers a watched word (R424) the sync counters and the
waits that they release, and nothing else. -/

namespace Sys2Proof.Machine

/-- The states agree but for registers, memory, error patterns, pending vectors, output, sync counters and queues. -/
structure evFrame (s t : State) : Prop where
  same : t = { s with regs := t.regs, mem := t.mem, herr := t.herr, msixPend := t.msixPend, out := t.out,
                      ctrs := t.ctrs, queues := t.queues }
  queue : ∀ q, t.queue q = { s.queue q with wait := (t.queue q).wait }

theorem evFrame_refl (s : State) : evFrame s s := ⟨rfl, fun _ => rfl⟩

theorem evFrame_trans {a b c : State} (h : evFrame a b) (k : evFrame b c) : evFrame a c :=
  ⟨by rw [k.same, h.same], fun q => by rw [k.queue q, h.queue q]⟩

theorem evFrame_wr (s : State) (b : Nat) (f : Field) (v : Nat) : evFrame s (s.wr b f v) := ⟨rfl, fun _ => rfl⟩

theorem evFrame_bump (s : State) (b : Nat) (c w : Field) (n : Nat) : evFrame s (s.bump b c w n) := by
  unfold State.bump; dsimp only; split <;> exact ⟨rfl, fun _ => rfl⟩

theorem evFrame_sendMsix (s : State) (ld vec : Nat) : evFrame s (sendMsix s ld vec) := by
  unfold sendMsix; dsimp only; split
  · split <;> exact ⟨rfl, fun _ => rfl⟩
  · exact ⟨rfl, fun _ => rfl⟩

/-- The states agree but for sync counters and the waits of queues. -/
structure waitsOnly (s t : State) : Prop where
  same : t = { s with ctrs := t.ctrs, queues := t.queues }
  queue : ∀ q, t.queue q = { s.queue q with wait := (t.queue q).wait }

theorem waitsOnly_refl (s : State) : waitsOnly s s := ⟨rfl, fun _ => rfl⟩

theorem waitsOnly_trans {a b c : State} (h : waitsOnly a b) (k : waitsOnly b c) : waitsOnly a c :=
  ⟨by rw [k.same, h.same], fun q => by rw [k.queue q, h.queue q]⟩

theorem waitsOnly_setC (s : State) (p i : Nat) (v : Ctr) : waitsOnly s (s.setC p i v) := ⟨rfl, fun _ => rfl⟩

theorem waitsOnly_setWait (s : State) (q : QId) (w : Option WaitReg) : waitsOnly s (s.setQ q { s.queue q with wait := w }) := by
  refine ⟨rfl, fun r => ?_⟩
  by_cases h : r = q
  · subst h; simp
  · rw [State.queue_setQ_ne s q r _ h]

/-- A release changes its counter and the wait of its queue, and nothing else. -/
theorem waitsOnly_tryRelease (s : State) (p i : Nat) (q : QId) : waitsOnly s (tryRelease s p i q) := by
  unfold tryRelease; dsimp only; split
  · exact waitsOnly_refl _
  · split
    · exact waitsOnly_refl _
    · exact waitsOnly_trans (waitsOnly_setC s p i _) (waitsOnly_setWait (s.setC p i _) q _)

theorem waitsOnly_examine (s : State) (p i : Nat) : waitsOnly s (examine s p i) :=
  forEach_rel waitsOnly waitsOnly_refl (fun _ _ _ => waitsOnly_trans) _ _ (fun s q => waitsOnly_tryRelease s p i q) s

/-- A set of a counter changes counters and waits, and nothing else. -/
theorem waitsOnly_ctrSet (s : State) (p i v : Nat) : waitsOnly s (ctrSet s p i v) :=
  waitsOnly_trans (waitsOnly_trans (waitsOnly_setC s p i _) (waitsOnly_setC _ p i _)) (waitsOnly_examine _ p i)

/-- A write of a watched word (R424) changes counters and waits, and nothing else. -/
theorem waitsOnly_nfHook (s : State) (k a n : Nat) : waitsOnly s (nfHook s k a n) := by
  unfold nfHook; split
  · refine forEach_rel waitsOnly waitsOnly_refl (fun _ _ _ => waitsOnly_trans) _ _ (fun s p => ?_) s
    split
    · exact waitsOnly_ctrSet _ _ _ _
    · exact waitsOnly_refl _
  · exact waitsOnly_refl _

theorem evFrame_waits {s t : State} (h : waitsOnly s t) : evFrame s t := ⟨by rw [h.same], h.queue⟩

theorem evFrame_ringPut (s : State) (src : Nat × Nat) (k base lg wr rd : Nat) (rcd : List Nat) :
    evFrame s (ringPut s src k base lg wr rd rcd).1 := by
  unfold ringPut; dsimp only; split
  · refine evFrame_trans ?_ (evFrame_waits (waitsOnly_nfHook _ _ _ _))
    exact ⟨rfl, fun _ => rfl⟩
  · exact evFrame_refl _

theorem evFrame_devPut (s : State) (rcd : List Nat) : evFrame s (devPut s rcd) := by
  unfold devPut; dsimp only; split
  · exact ⟨rfl, fun _ => rfl⟩
  · exact evFrame_bump _ _ _ _ _

theorem evFrame_partRing (s : State) (k : Nat) (rcd : List Nat) : evFrame s (partRing s k rcd) := by
  unfold partRing; dsimp only; split
  · split
    · exact evFrame_trans (evFrame_ringPut s trcStop k _ _ _ _ rcd) (evFrame_wr _ _ _ _)
    · exact evFrame_bump _ _ _ _ _
  · exact evFrame_bump _ _ _ _ _

theorem evFrame_partPut (s : State) (k code sev : Nat) (rcd : List Nat) : evFrame s (partPut s k code sev rcd) := by
  unfold partPut; dsimp only; split
  · exact evFrame_trans (evFrame_partRing _ _ _) (evFrame_sendMsix _ _ _)
  · exact evFrame_partRing _ _ _

/-- Raising an event keeps everything but registers, memory, error patterns, pending vectors and output, sync counters and waits. -/
theorem raiseEv_frame (s : State) (e : Ev) (p : Option Nat) (d : EvData) : evFrame s (raiseEv s e p d) := by
  unfold raiseEv
  generalize evInfo e = x
  obtain ⟨code, sev, scope⟩ := x
  dsimp only
  generalize evRecord e (p.getD 255) s.ns d = rcd
  generalize s.evToPart scope p = toP
  cases toP <;> simp only [Bool.false_eq_true, if_true, if_false] <;> split
  · exact evFrame_devPut _ _
  · exact evFrame_refl _
  · exact evFrame_trans (evFrame_partPut _ _ _ _ _) (evFrame_devPut _ _)
  · exact evFrame_partPut _ _ _ _ _

/-! The registers that an event touches: those of CXLP_ and TRC_ blocks. -/

/-- Is a register key outside the blocks of CXLP_ and TRC_. -/
def evKey (k : Nat) : Prop := k < 0xC102400000 * 64 ∨ 0xC102709000 * 64 ≤ k ∨
  (0xC102410000 * 64 ≤ k ∧ k < 0xC102700000 * 64)

/-- The states agree on every register outside the CXLP_ and TRC_ blocks. -/
structure evRegs (s t : State) : Prop where
  same : ∀ k, evKey k → tget t.regs k = tget s.regs k

theorem evRegs_refl (s : State) : evRegs s s := ⟨fun _ _ => rfl⟩
theorem evRegs_trans {a b c : State} (h : evRegs a b) (k : evRegs b c) : evRegs a c :=
  ⟨fun x hx => (k.same x hx).trans (h.same x hx)⟩

theorem evRegs_wr (s : State) (b : Nat) (f : Field) (v : Nat) (h : ¬ evKey (fkey b f)) : evRegs s (s.wr b f v) :=
  ⟨fun k hk => State.tget_wr_ne s b f v k (fun e => h (e ▸ hk))⟩

theorem evRegs_bump (s : State) (b : Nat) (c w : Field) (n : Nat) (h : ¬ evKey (fkey b c)) (g : ¬ evKey (fkey b w)) :
    evRegs s (s.bump b c w n) := by
  unfold State.bump; dsimp only; split
  · exact evRegs_trans (evRegs_wr _ _ _ _ h) (evRegs_wr _ _ _ _ g)
  · exact evRegs_wr _ _ _ _ h

theorem evRegs_devPut (s : State) (rcd : List Nat) : evRegs s (devPut s rcd) := by
  unfold devPut; dsimp only; split
  · exact ⟨fun k hk => (State.tget_wr_ne _ trcBase TRC_DEVWR.COUNT _ k
      (fun e => (by unfold evKey; decide : ¬ evKey (fkey trcBase TRC_DEVWR.COUNT)) (e ▸ hk))).trans rfl⟩
  · exact evRegs_bump _ trcBase TRC_DEVDROP.COUNT TRC_DEVDROP.WRAP _ (by unfold evKey; decide) (by unfold evKey; decide)

theorem evRegs_waits {s t : State} (h : waitsOnly s t) : evRegs s t := ⟨fun _ _ => by rw [h.same]⟩

theorem evRegs_ringPut (s : State) (src : Nat × Nat) (k base lg wr rd : Nat) (rcd : List Nat) :
    evRegs s (ringPut s src k base lg wr rd rcd).1 := by
  unfold ringPut; dsimp only; split
  · refine evRegs_trans ?_ (evRegs_waits (waitsOnly_nfHook _ _ _ _))
    exact ⟨fun _ _ => rfl⟩
  · exact evRegs_refl _

theorem evRegs_sendMsix (s : State) (ld vec : Nat) (h : ld < 8) : evRegs s (sendMsix s ld vec) := by
  unfold sendMsix; dsimp only; split
  · split <;> exact ⟨fun _ _ => rfl⟩
  · refine evRegs_trans (evRegs_wr _ _ _ _ ?_) ⟨fun _ _ => rfl⟩
    simp only [evKey, fkey, cxlpLBase, cxlpBase, CXLP_LDMSI.COUNT]; omega

theorem evRegs_partRing (s : State) (k : Nat) (rcd : List Nat) (h : k < 8) : evRegs s (partRing s k rcd) := by
  have key : ∀ f : Field, f.off < 0x1000 → f.lo < 64 → ¬ evKey (fkey (trcPBase k) f) := by
    intro f h1 h2
    simp only [evKey, fkey, trcPBase, trcBase]; omega
  have hd : evRegs s (s.bump (trcPBase k) TRC_EDROP.COUNT TRC_EDROP.WRAP 1) :=
    evRegs_bump _ _ _ _ _ (key _ (by decide) (by decide)) (key _ (by decide) (by decide))
  unfold partRing; dsimp only; split
  · split
    · exact evRegs_trans (evRegs_ringPut s trcStop k _ _ _ _ rcd) (evRegs_wr _ _ _ _ (key _ (by decide) (by decide)))
    · exact hd
  · exact hd

theorem evRegs_partPut (s : State) (k code sev : Nat) (rcd : List Nat) (h : k < 8) :
    evRegs s (partPut s k code sev rcd) := by
  unfold partPut; dsimp only; split
  · exact evRegs_trans (evRegs_partRing _ _ _ h) (evRegs_sendMsix _ _ _ h)
  · exact evRegs_partRing _ _ _ h

/-- Raising an event about one of the eight partitions, or about none, keeps every register outside the CXLP_ and TRC_
blocks. -/
theorem raiseEv_regs (s : State) (e : Ev) (p : Option Nat) (d : EvData) (h : ∀ k, p = some k → k < 8) :
    evRegs s (raiseEv s e p d) := by
  unfold raiseEv
  generalize evInfo e = x
  obtain ⟨code, sev, scope⟩ := x
  dsimp only
  generalize evRecord e (p.getD 255) s.ns d = rcd
  generalize s.evToPart scope p = toP
  have hk : p.getD 0 < 8 := by
    cases p with
    | none => simp
    | some k => exact h k rfl
  cases toP <;> simp only [Bool.false_eq_true, if_true, if_false] <;> split
  · exact evRegs_devPut _ _
  · exact evRegs_refl _
  · exact evRegs_trans (evRegs_partPut _ _ _ _ _ hk) (evRegs_devPut _ _)
  · exact evRegs_partPut _ _ _ _ _ hk

/-- A register outside the CXLP_ and TRC_ blocks reads after an event as before it. -/
theorem raiseEv_rd (s : State) (e : Ev) (p : Option Nat) (d : EvData) (x : Nat) (g : Field)
    (h : ∀ k, p = some k → k < 8) (hk : evKey (fkey x g)) : (raiseEv s e p d).rd x g = s.rd x g := by
  simp only [State.rd, tgetD, (raiseEv_regs s e p d h).same _ hk]

/-- A partition that holds a pack is one of the eight. -/
theorem State.packPart_lt {s : State} {p k : Nat} (h : s.packPart p = some k) : k < 8 :=
  List.mem_range.1 (List.mem_of_find?_eq_some h)

theorem State.qPart_lt {s : State} {q : QId} {k : Nat} (h : s.qPart q = some k) : k < 8 := State.packPart_lt h

/-! Fields that no event touches. -/

@[simp] theorem raiseEv_ident (s : State) (e : Ev) (p : Option Nat) (d : EvData) :
    (raiseEv s e p d).ident = s.ident := by rw [(raiseEv_frame s e p d).same]
@[simp] theorem raiseEv_kn (s : State) (e : Ev) (p : Option Nat) (d : EvData) :
    (raiseEv s e p d).kn = s.kn := by rw [(raiseEv_frame s e p d).same]
@[simp] theorem raiseEv_shp (s : State) (e : Ev) (p : Option Nat) (d : EvData) :
    (raiseEv s e p d).shp = s.shp := by rw [(raiseEv_frame s e p d).same]
@[simp] theorem raiseEv_pmus (s : State) (e : Ev) (p : Option Nat) (d : EvData) :
    (raiseEv s e p d).pmus = s.pmus := by rw [(raiseEv_frame s e p d).same]
@[simp] theorem raiseEv_fns (s : State) (e : Ev) (p : Option Nat) (d : EvData) :
    (raiseEv s e p d).fns = s.fns := by rw [(raiseEv_frame s e p d).same]
@[simp] theorem raiseEv_tsync (s : State) (e : Ev) (p : Option Nat) (d : EvData) :
    (raiseEv s e p d).tsync = s.tsync := by rw [(raiseEv_frame s e p d).same]
@[simp] theorem raiseEv_parts (s : State) (e : Ev) (p : Option Nat) (d : EvData) :
    (raiseEv s e p d).parts = s.parts := by rw [(raiseEv_frame s e p d).same]
@[simp] theorem raiseEv_tiles (s : State) (e : Ev) (p : Option Nat) (d : EvData) :
    (raiseEv s e p d).tiles = s.tiles := by rw [(raiseEv_frame s e p d).same]
@[simp] theorem raiseEv_rets (s : State) (e : Ev) (p : Option Nat) (d : EvData) :
    (raiseEv s e p d).rets = s.rets := by rw [(raiseEv_frame s e p d).same]
@[simp] theorem raiseEv_links (s : State) (e : Ev) (p : Option Nat) (d : EvData) :
    (raiseEv s e p d).links = s.links := by rw [(raiseEv_frame s e p d).same]
@[simp] theorem raiseEv_rte (s : State) (e : Ev) (p : Option Nat) (d : EvData) :
    (raiseEv s e p d).rte = s.rte := by rw [(raiseEv_frame s e p d).same]
@[simp] theorem raiseEv_xfers (s : State) (e : Ev) (p : Option Nat) (d : EvData) :
    (raiseEv s e p d).xfers = s.xfers := by rw [(raiseEv_frame s e p d).same]
@[simp] theorem raiseEv_xferNext (s : State) (e : Ev) (p : Option Nat) (d : EvData) :
    (raiseEv s e p d).xferNext = s.xferNext := by rw [(raiseEv_frame s e p d).same]
@[simp] theorem raiseEv_haccs (s : State) (e : Ev) (p : Option Nat) (d : EvData) :
    (raiseEv s e p d).haccs = s.haccs := by rw [(raiseEv_frame s e p d).same]
@[simp] theorem raiseEv_haccNext (s : State) (e : Ev) (p : Option Nat) (d : EvData) :
    (raiseEv s e p d).haccNext = s.haccNext := by rw [(raiseEv_frame s e p d).same]
@[simp] theorem raiseEv_hpieces (s : State) (e : Ev) (p : Option Nat) (d : EvData) :
    (raiseEv s e p d).hpieces = s.hpieces := by rw [(raiseEv_frame s e p d).same]
@[simp] theorem raiseEv_hpieceNext (s : State) (e : Ev) (p : Option Nat) (d : EvData) :
    (raiseEv s e p d).hpieceNext = s.hpieceNext := by rw [(raiseEv_frame s e p d).same]
@[simp] theorem raiseEv_lastLd (s : State) (e : Ev) (p : Option Nat) (d : EvData) :
    (raiseEv s e p d).lastLd = s.lastLd := by rw [(raiseEv_frame s e p d).same]
@[simp] theorem raiseEv_telAt (s : State) (e : Ev) (p : Option Nat) (d : EvData) :
    (raiseEv s e p d).telAt = s.telAt := by rw [(raiseEv_frame s e p d).same]
@[simp] theorem raiseEv_time (s : State) (e : Ev) (p : Option Nat) (d : EvData) :
    (raiseEv s e p d).time = s.time := by rw [(raiseEv_frame s e p d).same]
@[simp] theorem raiseEv_clock (s : State) (e : Ev) (p : Option Nat) (d : EvData) :
    (raiseEv s e p d).clock = s.clock := by rw [(raiseEv_frame s e p d).same]
@[simp] theorem raiseEv_aclk0 (s : State) (e : Ev) (p : Option Nat) (d : EvData) :
    (raiseEv s e p d).aclk0 = s.aclk0 := by rw [(raiseEv_frame s e p d).same]
@[simp] theorem raiseEv_aclk1 (s : State) (e : Ev) (p : Option Nat) (d : EvData) :
    (raiseEv s e p d).aclk1 = s.aclk1 := by rw [(raiseEv_frame s e p d).same]
@[simp] theorem raiseEv_bridges (s : State) (e : Ev) (p : Option Nat) (d : EvData) :
    (raiseEv s e p d).bridges = s.bridges := by rw [(raiseEv_frame s e p d).same]
@[simp] theorem raiseEv_msixOpen (s : State) (e : Ev) (p : Option Nat) (d : EvData) :
    (raiseEv s e p d).msixOpen = s.msixOpen := by rw [(raiseEv_frame s e p d).same]
@[simp] theorem raiseEv_msixTab (s : State) (e : Ev) (p : Option Nat) (d : EvData) :
    (raiseEv s e p d).msixTab = s.msixTab := by rw [(raiseEv_frame s e p d).same]
@[simp] theorem raiseEv_scrubNow (s : State) (e : Ev) (p : Option Nat) (d : EvData) :
    (raiseEv s e p d).scrubNow = s.scrubNow := by rw [(raiseEv_frame s e p d).same]
@[simp] theorem raiseEv_remapPtr (s : State) (e : Ev) (p : Option Nat) (d : EvData) :
    (raiseEv s e p d).remapPtr = s.remapPtr := by rw [(raiseEv_frame s e p d).same]
@[simp] theorem raiseEv_refresh (s : State) (e : Ev) (p : Option Nat) (d : EvData) :
    (raiseEv s e p d).refresh = s.refresh := by rw [(raiseEv_frame s e p d).same]
@[simp] theorem raiseEv_fresh (s : State) (e : Ev) (p : Option Nat) (d : EvData) :
    (raiseEv s e p d).fresh = s.fresh := by rw [(raiseEv_frame s e p d).same]
@[simp] theorem raiseEv_pending (s : State) (e : Ev) (p : Option Nat) (d : EvData) :
    (raiseEv s e p d).pending = s.pending := by rw [(raiseEv_frame s e p d).same]
/-- An event leaves everything of a queue but the release of its wait. -/
theorem raiseEv_queue (s : State) (e : Ev) (p : Option Nat) (d : EvData) (q : QId) :
    (raiseEv s e p d).queue q = { s.queue q with wait := ((raiseEv s e p d).queue q).wait } := (raiseEv_frame s e p d).queue q
@[simp] theorem raiseEv_tile (s : State) (e : Ev) (p : Option Nat) (d : EvData) (t : Nat) :
    (raiseEv s e p d).tile t = s.tile t := by rw [(raiseEv_frame s e p d).same]; rfl
@[simp] theorem raiseEv_ret (s : State) (e : Ev) (p : Option Nat) (d : EvData) (a c : Nat) :
    (raiseEv s e p d).ret a c = s.ret a c := by rw [(raiseEv_frame s e p d).same]; rfl
@[simp] theorem raiseEv_part (s : State) (e : Ev) (p : Option Nat) (d : EvData) (a : Nat) :
    (raiseEv s e p d).part a = s.part a := by rw [(raiseEv_frame s e p d).same]; rfl
@[simp] theorem raiseEv_link (s : State) (e : Ev) (p : Option Nat) (d : EvData) (a : Nat) :
    (raiseEv s e p d).link a = s.link a := by rw [(raiseEv_frame s e p d).same]; rfl
@[simp] theorem raiseEv_ns (s : State) (e : Ev) (p : Option Nat) (d : EvData) :
    (raiseEv s e p d).ns = s.ns := by rw [(raiseEv_frame s e p d).same]; rfl
@[simp] theorem raiseEv_nclk (s : State) (e : Ev) (p : Option Nat) (d : EvData) :
    (raiseEv s e p d).nclk = s.nclk := by rw [(raiseEv_frame s e p d).same]; rfl

end Sys2Proof.Machine
end

