-- ==== Sys2Proof/WellFormed.lean ====
section
/-! DEFINITION. The commands whose operands name units that the device has (R3, R4, R18, R32): tiles 0 to 143, packs 0 to 15,
stacks 0 to 11, ports 0 to 7, partitions and LDs 0 to 7, and within a unit its address generators, slots, VCs, lanes,
contexts, Retrievers and pseudo-channels. -/

namespace Sys2Proof

/-- A queue of a tile or of a pack that the numbering of R3 and R18 gives. -/
def QId.wf : QId → Bool
  | .cq t => decide (t < 144)
  | .mq t => decide (t < 144)
  | .gq p => decide (p < 16)
  | .pmq p => decide (p < 16)

/-- A source that the numbering of R3, R18 and R32 gives. -/
def Src.wf : Src → Bool
  | .unit p => decide (p < 16)
  | .tile t => decide (t < 144)
  | .staged p st => decide (p < 16) && decide (st < 16)
  | .ld n => decide (n < 8)
  | .far n _ => decide (n < 64)
  | _ => true

/-- Do the fields of a packet lie within the widths of R316. -/
def Pkt.wf (p : Pkt) : Bool :=
  decide (p.dest < 2 ^ 24) && decide (p.src < 2 ^ 24) && decide (p.typ < 256) && decide (p.cls < 7) && decide (p.sstep < 3) &&
    decide (p.xfer < 2 ^ 32) && decide (p.collar < 2 ^ 32) && decide (p.addr < 2 ^ 40) && decide (p.len32 ≤ 224) &&
    decide (p.status < 256) && decide (p.hops < 256) && decide (p.tie < 16) && decide (p.dl < 16) && decide (p.ut < 16) &&
    decide (p.ssax < 4) && decide (p.bmask < 2 ^ 32) && decide (p.itime < 2 ^ 64) && decide (p.fep < 2 ^ 24) &&
    decide (p.faddr < 2 ^ 40) && decide (p.body.length ≤ 176) && p.body.all (fun b => decide (b < 256)) &&
    decide (p.data.length ≤ 7168) && p.data.all (fun b => decide (b < 256))

/-- Do the fields of a flit and of its payload lie within the widths of R282 and R315. -/
def Flit.wf (f : Flit) : Bool :=
  let p := f.payload
  decide (f.seq < 2 ^ 32) && decide (f.ack < 2 ^ 32) && decide (f.slot < 9) && decide (f.kph < 2) && decide (f.fpos < 16) &&
    decide (f.tagb < 256) && decide (f.crc < 2 ^ 32) && (decide (p.vc < 21) || p.vc == 31) && decide (p.fidx < 64) &&
    (match p.hdr with
     | some h => h.wf
     | none => true) && decide (p.data.length ≤ 224) && p.data.all (fun b => decide (b < 256))

/-- Is a command well formed. -/
def Instr.wf : Instr → Bool
  | .nop q => q.wf
  | .mma t _ => decide (t < 144)
  | .mmaLb t _ => decide (t < 144)
  | .vop t _ => decide (t < 144)
  | .vtr t _ => decide (t < 144)
  | .vcvt t _ => decide (t < 144)
  | .vres t _ => decide (t < 144)
  | .agld t _ => decide (t < 144)
  | .move q => q.wf
  | .rcopy q => q.wf
  | .coll q => q.wf
  | .signal q => q.wf
  | .wait q => q.wf
  | .skipIf q => q.wf
  | .overlay q => q.wf
  | .phase q => q.wf
  | .mark q => q.wf
  | .save t => decide (t < 144)
  | .restore t => decide (t < 144)
  | .scaledReplay t => decide (t < 144)
  | .movi t ag => decide (t < 144) && decide (ag < 3)
  | .addi t ag => decide (t < 144) && decide (ag < 3)
  | .add t ag => decide (t < 144) && decide (ag < 3)
  | .push t ag => decide (t < 144) && decide (ag < 3)
  | .loop t ag => decide (t < 144) && decide (ag < 3)
  | .programHalt t ag => decide (t < 144) && decide (ag < 3)
  | .issueBlockStart t => decide (t < 144)
  | .fetch q _ => q.wf
  | .commandRetire q => q.wf
  | .seqFault q => q.wf
  | .seqBreak q => q.wf
  | .seqQctrlEn c q _ => c.wf && q.wf
  | .halt c q _ => c.wf && q.wf
  | .resume c q => c.wf && q.wf
  | .skip c q => c.wf && q.wf
  | .seqQtail c q _ => c.wf && q.wf
  | .preempt c t => c.wf && decide (t < 144)
  | .preemptSaveDone t => decide (t < 144)
  | .tileRestore c t => c.wf && decide (t < 144)
  | .tileRestoreDone t => decide (t < 144)
  | .packPreempt c p => c.wf && decide (p < 16)
  | .packResume c p => c.wf && decide (p < 16)
  | .agFifo c t ag _ => c.wf && decide (t < 144) && decide (ag < 3)
  | .counterAdd p _ _ => decide (p < 16)
  | .counterSet p _ _ => decide (p < 16)
  | .leashFire q => q.wf
  | .howl c p => c.wf && decide (p < 16)
  | .howlDone k => decide (k < 8)
  | .load c _ _ => c.wf
  | .store c _ _ => c.wf
  | .regWrite c _ _ _ => c.wf
  | .regReadClear c _ _ => c.wf
  | .hbmRead x _ => decide (x.n < 12 * 2 ^ 31)
  | .hbmWrite x _ => decide (x.n < 12 * 2 ^ 36)
  | .scrubRead h _ => decide (h < 12)
  | .hbmcScrubNow c h => c.wf && decide (h < 12)
  | .remapReq c h pc _ => c.wf && decide (h < 12) && decide (pc < 32)
  | .remapPassStep h pc => decide (h < 12) && decide (pc < 32)
  | .refresh h _ => decide (h < 12)
  | .zeroFillDone => true
  | .flit n f => f.wf && decide (n < 8)
  | .frame n slot _ => decide (n < 8) && decide (slot < 9)
  | .pad n slot => decide (n < 8) && decide (slot < 9)
  | .ackTimeout n => decide (n < 8)
  | .noSignal n => decide (n < 8)
  | .laneBad n lane => decide (n < 8) && decide (lane < 12)
  | .degradeNotice n _ => decide (n < 8)
  | .restorePossible n _ => decide (n < 8)
  | .restoreNotice n _ => decide (n < 8)
  | .signalDetect n => decide (n < 8)
  | .phyTrainDone n _ => decide (n < 8)
  | .alignDone n _ _ => decide (n < 8)
  | .identityRecord n _ => decide (n < 8)
  | .authDone n _ => decide (n < 8)
  | .confirmDone n => decide (n < 8)
  | .trainTimeout n => decide (n < 8)
  | .backoffExpiry n => decide (n < 8)
  | .active10s n => decide (n < 8)
  | .heldSignalReturn n _ => decide (n < 8)
  | .retrain c n => c.wf && decide (n < 8)
  | .disable c n _ => c.wf && decide (n < 8)
  | .rekeyReq c n => c.wf && decide (n < 8)
  | .rekeyThreshold n => decide (n < 8)
  | .keyx n p => p.wf && decide (n < 8)
  | .rekeyDone n => decide (n < 8)
  | .frameCounterLimit n slot => decide (n < 8) && decide (slot < 9)
  | .portsReady => true
  | .headFlit port vc => decide (port < 9) && decide (vc < 21)
  | .escWait port vc => decide (port < 9) && decide (vc < 21)
  | .credit n p => p.wf && decide (n < 8)
  | .creditReturnDelay n vc => decide (n < 8) && decide (vc < 21)
  | .lstate n p => p.wf && decide (n < 8)
  | .notice n p => p.wf && decide (n < 8)
  | .noticeWait n => decide (n < 8)
  | .rd p => p.wf
  | .rdData p => p.wf
  | .wr p => p.wf
  | .ack p => p.wf
  | .sync p => p.wf
  | .rdFwd p => p.wf
  | .fwdData p => p.wf
  | .lost p => p.wf
  | .xferTimeout _ => true
  | .telemRq p => p.wf
  | .telemRp p => p.wf
  | .histSample => true
  | .rteTsnap => true
  | .timeExchange n => decide (n < 8)
  | .time n _ _ _ _ => decide (n < 8)
  | .locked => true
  | .relock c => c.wf
  | .trcTset c _ => c.wf
  | .retrieverStart p n => decide (p < 16) && decide (n < 4)
  | .contextOpen k => decide (k < 8)
  | .stageBegin k ctx => decide (k < 8) && decide (ctx < 16)
  | .cReq p => p.wf
  | .cReqRetry k ctx => decide (k < 8) && decide (ctx < 16)
  | .cGrant p => p.wf
  | .cData p => p.wf
  | .cToken p => p.wf
  | .cCredit p => p.wf
  | .cAbort p => p.wf
  | .collCtrlAbort c p _ => c.wf && decide (p < 16)
  | .overlayLoad c k _ => c.wf && decide (k < 8)
  | .overlayDrop c k _ => c.wf && decide (k < 8)
  | .overlayArrival q => q.wf
  | .overlayReady q => q.wf
  | .close c k => c.wf && decide (k < 8)
  | .nfclr c k => c.wf && decide (k < 8)
  | .getInfo => true
  | .getCert => true
  | .getMeas => true
  | .enrollOpkey => true
  | .revokeOpkey => true
  | .loadBase => true
  | .partReq => true
  | .debugChallenge => true
  | .debugUnlock => true
  | .fwBegin => true
  | .fwBlock _ => true
  | .fwVerify => true
  | .fwActivate _ _ => true
  | .fwAbort => true
  | .fwStatus => true
  | .knlDone => true
  | .doze c => c.wf
  | .standby c => c.wf
  | .powerCycle c _ => c.wf
  | .shpReset c => c.wf
  | .shpHbeat c _ => c.wf
  | .deviceLeashKnl _ => true
  | .deviceLeashHost => true
  | .hostcap c d _ => c.wf && decide (d < 2)
  | .throttleRamp d => decide (d < 2)
  | .powerSample d _ => decide (d < 2)
  | .partitionIdle k => decide (k < 8)
  | .sensorSample sensor _ _ => decide (sensor < 96)
  | .shpScfg c sensor _ => c.wf && decide (sensor < 96)
  | .analogTrip => true
  | .pllLoss d _ => decide (d < 2)
  | .bridgeFail b ch => decide (b < 4) && decide (ch < 29)
  | .wake _ => true
  | .perstAssert => true
  | .perstDeassert _ => true
  | .hotReset _ => true
  | .shpRst => true
  | .shepherdHeartbeatFail => true
  | .standbyRailRise _ => true
  | .standbyRailLoss => true
  | .p12vLoss => true
  | .p12vInTolerance _ => true
  | .cxlLinkUp _ _ _ _ => true
  | .cxlLinkDown => true
  | .configRequest n _ _ _ _ => decide (n < 9)
  | .bar0Access n _ _ size _ _ => decide (n < 9) && decide (size ≤ 64)
  | .bar2Access n _ _ size _ _ => decide (n < 9) && decide (0 < size) && decide (size ≤ 4096)
  | .doorbell n _ off _ _ _ => decide (n < 9) && decide (off < 0x400000)
  | .howlWindowWrite n _ _ size _ => decide (n < 9) && decide (0 < size) && decide (size ≤ 4096)
  | .cxlMemRead n _ _ => decide (n < 8)
  | .cxlMemWrite n _ _ => decide (n < 8)
  | .hdmCommit n dec _ _ _ _ _ => decide (n.ld < 8) && decide (dec < 2)
  | .snoop => true
  | .functionLevelReset n => decide (n.ld < 8)
  | .spdmRequest n _ => decide (n.fn < 9) && decide (n.ty < 3)
  | .ideKm n _ => decide (n < 9)
  | .ideIntegrityFailure n => decide (n < 9)
  | .ideReq c n => c.wf && decide (n < 8)
  | .identify => true
  | .getLdInfo => true
  | .getLdAllocations => true
  | .setLdAllocations => true
  | .hostRetrieverPiece => true
  | .completionTimeout _ => true
  | .msixUnmask n vec => decide (n.ld < 8) && decide (vec < 2048)
  | .telcmdGo c _ _ _ _ => c.wf
  | .telcmdTimeout => true
  | .hostCompletion _ _ => true
  | .kennelHeartbeat => true
  | .flitTime n => decide (n < 8)
  | .receiverDeskew n => decide (n < 8)
  | .tileCyclesWrap t => decide (t < 144)

end Sys2Proof
end

