-- ==== Sys2Proof/Tests/Slice0.lean ====
section
/-! SUPPORT. Small tests: ill-formed commands are refused, single steps agree with the worked examples and rules of the
spec, and every statement's hypotheses are met by a concrete state, clause by clause. -/

namespace Sys2Proof.Tests

set_option Elab.async false

open Sys2Proof Sys2Proof.Machine

/-! Helpers. -/

/-- Some fields of one block set. -/
def wset (s : State) (b : Nat) (l : List (Field × Nat)) : State := l.foldl (fun s x => s.wr b x.1 x.2) s

/-- A device whose partition 0 is active with pack 0, stack 0, counters 0 to 15, LD and KEYS, some time after reset. -/
def w0 : State :=
  let s := { State.reset with
    parts := [(0, { life := 2, section_ := [0, 3], jdom := 5 })], clock := 10 ^ 12, time := 7000 }
  let s := wset s (shapePBase 0) [(SHAPE_PCFG.PACKS, 1), (SHAPE_PCFG.STACKS, 1), (SHAPE_PCFG.VALID, 1)]
  let s := wset s shapeBase [(SHAPE_STAT.LOADED, 1), (SHAPE_STAT.CLOSED, 1), (SHAPE_STAT.PARTS, 1)]
  let s := wset s (syncBase 0) [(SYNC_RANGE.LAST, 15), (SYNC_RANGE.VALID, 1)]
  wset s (hbmcBase 0) [(HBMC_DOMAIN.VALID, 1), (HBMC_DOMAIN.DSIZE, 1), (HBMC_DOMAIN.DMASK, 1)]

/-- A command word from its opcode, its repeats and (value, first bit) pairs of the other fields (R136). -/
def word (op rep : Nat) (l : List (Nat × Nat)) : Nat := l.foldl (fun w x => w + x.1 * 2 ^ x.2) (op + rep * 2 ^ 64)

/-- An enabled queue whose one published command is prefetched. -/
def wq (s : State) (q : QId) (w : Nat) (f : Queue → Queue) : State :=
  let s := wset s (qBase q) [(SEQ_QCTRL.EN, 1), (SEQ_QCTRL.RING_LOG2, 7), (SEQ_QTAIL.TAIL, 1)]
  s.setQ q (f { pre := [(0, w)] })

/-- The same with an issue block of that command open. -/
def wb (s : State) (t w : Nat) : State := wq s (.cq t) w (fun q => { q with isOpen := true, blk := 1 })

/-- The state that a command answers; a stop, which no command has, would answer the state after reset. -/
def run (i : Instr) (s : State) : State :=
  match exec i s with
  | .next u => u
  | _ => State.reset

/-- Port 0 up in a state of the link with fields of the link. -/
def wl (st : Nat) (l : List (Field × Nat)) (k : Link) : State :=
  (wset w0 (lnkBase 0) ([(LNK_CFG.EN, 1), (LNK_COORD.VALID, 1), (LNK_STAT.STATE, st), (LNK_STAT.RXMASK, 0xFFF),
    (LNK_STAT.TXMASK, 0xFFF)] ++ l)).setL 0 k

/-! Ill-formed commands are refused: one for each check of `Instr.wf`. -/

theorem test_wf_tile : (Instr.mma 143 1).wf = true ∧ (Instr.mma 144 1).wf = false := by decide
theorem test_wf_queue : (Instr.nop (.cq 144)).wf = false ∧ (Instr.nop (.mq 144)).wf = false ∧
    (Instr.nop (.gq 16)).wf = false ∧ (Instr.nop (.pmq 16)).wf = false ∧ (Instr.nop (.pmq 15)).wf = true := by decide
theorem test_wf_ag : (Instr.movi 0 3).wf = false ∧ (Instr.movi 144 0).wf = false ∧ (Instr.agFifo .mgmt 0 3 0).wf = false := by
  decide
theorem test_wf_pack : (Instr.packPreempt .mgmt 16).wf = false ∧ (Instr.counterAdd 16 0 0).wf = false ∧
    (Instr.retrieverStart 0 4).wf = false ∧ (Instr.collCtrlAbort .mgmt 16 0).wf = false := by decide
theorem test_wf_hbm : (Instr.hbmRead { c := .mgmt, n := 12 * 2 ^ 31 } []).wf = false ∧
    (Instr.hbmWrite { c := .mgmt, n := 12 * 2 ^ 36 } []).wf = false ∧
    (Instr.scrubRead 12 []).wf = false ∧ (Instr.remapReq .mgmt 0 32 0).wf = false ∧ (Instr.remapReq .mgmt 11 31 0).wf = true := by
  decide
theorem test_wf_port : (Instr.flitTime 8).wf = false ∧ (Instr.frame 0 9 true).wf = false ∧ (Instr.laneBad 0 12).wf = false ∧
    (Instr.frameCounterLimit 0 9).wf = false ∧ (Instr.creditReturnDelay 0 21).wf = false := by decide
theorem test_wf_router : (Instr.headFlit 9 0).wf = false ∧ (Instr.headFlit 8 21).wf = false ∧ (Instr.headFlit 8 20).wf = true := by
  decide
theorem test_wf_partition : (Instr.close .mgmt 8).wf = false ∧ (Instr.stageBegin 0 16).wf = false ∧
    (Instr.partitionIdle 8).wf = false := by decide
theorem test_wf_power : (Instr.hostcap .mgmt 2 0).wf = false ∧ (Instr.sensorSample 96 0 {}).wf = false ∧
    (Instr.bridgeFail 4 0).wf = false := by decide
theorem test_wf_host : (Instr.configRequest 9 false 0 0 false).wf = false ∧ (Instr.bar0Access 0 false 0 65 0 false).wf = false ∧
    (Instr.bar2Access 0 false 0 0 [] false).wf = false ∧ (Instr.doorbell 0 false 0x400000 4 0 false).wf = false ∧
    (Instr.hdmCommit {} 2 0 0 1 256 0).wf = false ∧ (Instr.msixUnmask {} 2048).wf = false := by decide
theorem test_no_table_bits : decodeTableWord 8 0 = none ∧ w0.withFetchWord 8 0 = w0 := ⟨rfl, rfl⟩

/-! The worked examples of the spec. -/

/-- The conversion example of 03: 1.0625 to E4M3 by RNE and by two stochastic draws. -/
theorem test_e4m3_tie :
    convert .e4m3 false .rne (ofF32 0x3F880000) = { code := 0x38 } ∧
    convert .e4m3 false (.sr 8 0x5A) (ofF32 0x3F880000) = { code := 0x38 } ∧
    convert .e4m3 false (.sr 8 0xA3) (ofF32 0x3F880000) = { code := 0x39 } := by decide +kernel
theorem test_bf16_tie : convert .bf16 false .rne (ofF32 0x3F818000) = { code := 0x3F82 } ∧
    convert .bf16 false .rne (ofF32 0x3F808000) = { code := 0x3F80 } := by decide +kernel
/-- The example of values near 448. -/
theorem test_e4m3_overflow :
    convert .e4m3 true .rne (ofF32 0x43E08000) = { code := 0x7E } ∧
    convert .e4m3 true .rne (ofF32 0x43E80000) = { code := 0x7E } ∧
    convert .e4m3 false .rne (ofF32 0x43E80001) = { code := 0x7E, sat := 1 } ∧
    convert .e4m3 true .rne (ofF32 0x43E80001) = { code := 0x7F, nan := 1 } ∧
    convert .e4m3 false .rne (ofF32 0xC3F00000) = { code := 0xFE, sat := 1 } ∧
    convert .e4m3 true .rne (ofF32 0xC3F00000) = { code := 0x7F, nan := 1 } ∧
    convert .e4m3 false (.sr 8 0xFA) (ofF32 0x43E08000) = { code := 0x7E, sat := 1 } ∧
    convert .e4m3 true (.sr 8 0x10) (ofF32 0x43E08000) = { code := 0x7E } := by decide +kernel
/-- The expansion examples under R83. -/
theorem test_expand : expandCode .e3m2 0x1F = 0x5E ∧ expandCode .e2m3 0x3D = 0xCD ∧ expandCode .int4 8 = 0xF8 ∧
    expandCode .int4 7 = 7 ∧ expandCode .e2m1 0x7 = 0x4C ∧ expandCode .e2m1 1 = 0x30 := by decide +kernel
/-- The E2M1 block example: 5.0, 0.3, −2.7, −0.0, 13.0 and zeros. -/
theorem test_block :
    let xs := ([0x40A00000, 0x3E99999A, 0xC02CCCCD, 0x80000000, 0x41500000] ++ List.replicate 27 0).map
      (fun c => (ofF32 c, Rnd.rne))
    let b := convertBlock .e2m1 false 0 xs
    b.1 = 0x80 ∧ b.2.map (·.code) = [0x4, 0x0, 0xB, 0x8, 0x7] ++ List.replicate 27 0 ∧
      (b.2.map (·.flush)).sum = 1 ∧ (b.2.map (·.sat)).sum = 0 ∧
      leBytes 3 (packRun 4 (b.2.map (·.code))) = [0x04, 0x8B, 0x07] ∧
      (b.2.take 5).map (fun c => (widen .e2m1 true b.1 c.code).code) =
        [0x40800000, 0, 0xC0400000, 0x80000000, 0x41400000] := by decide +kernel
/-- The encoding example of R179: the fields of the command whose four 64-bit words the spec writes out. -/
theorem test_mma_word :
    let w := 0x002D002001230110 + 0x0000050000000010 * 2 ^ 64 + 0x000A170000167D00 * 2 ^ 128
    cwOPCODE w = opMMA ∧ cwSIG w = 1 ∧ cwSIGIDX w = 5 ∧ cwTAG w = 0x0123 ∧ cwGAP w = 32 ∧ cwNGAP w = 45 ∧
      cwREPEAT w = 16 ∧ mmaFA w = 0 ∧ mmaFB w = 0 ∧ mmaBANK w = 1 ∧ mmaMROWS w = 31 ∧ mmaCLR w = 1 ∧ mmaFC w = 1 ∧
      mmaCLOG w = 2 ∧ mmaSTREAM w = 0xA17 ∧ matM w = 128 ∧ matC w = 4 ∧ w0.refuseCode (.cq 0) w = none ∧
      w0.refuseCode (.mq 0) w = some 0x03 ∧ w0.refuseCode (.cq 0) (w + 2 ^ 115) = some 0x02 := by decide +kernel
/-- The chunk example of 04: 2²⁴ and then ones; chunk 0 of four blocks closes at 2²⁴, later chunks at 4. -/
theorem test_chunk :
    let w := word opMMA 128 [(2, 147)]
    let go (xs : List Nat) := xs.foldl (fun (x : Entry × Option (Nat × Nat)) v =>
      let r := chunkEntry w false false x.1 v
      (r.1, r.2.1)) (({} : Entry), none)
    (go [0x4B800000, 0x3F800000, 0x3F800000, 0x3F800000]).2 = some (0x4B800000, 0) ∧
      (go [0x3F800000, 0x3F800000, 0x3F800000, 0x3F800000]).2 = some (0x40800000, 0) ∧
      (accAdd .rne 0x4B800000 0x40800000).1 = 0x4B800002 := by decide +kernel
/-- The example of an overflowed product and a NaN in one dot product. -/
theorem test_block_sum :
    let one : Val := decodeFmt .bf16 0x3F80
    let big : Val := decodeFmt .bf16 0x7100
    let s0 := blockSum (big :: List.replicate 15 one) (big :: List.replicate 15 (decodeFmt .bf16 0xBF80)) 0x7F 0x7F 0
    let s1 := blockSum (List.replicate 16 one) (decodeFmt .bf16 0x7FC1 :: List.replicate 15 one) 0x7F 0x7F 0
    s0.1 = 0x7F800000 ∧ s0.2.inf = 1 ∧ s0.2.nan = 0 ∧ s1.1 = 0x7FC00000 ∧ s1.2.nan = 1 ∧
      (accAdd .rne 0x7F800000 0x7FC00000).1 = 0x7FC00000 ∧ (accAdd .rne 0x7F800000 0x7FC00000).2.nan = 0 := by
  decide +kernel
/-- The address-program example: one instruction each two ACLK, the loop free on the way back, six pushes in order. -/
theorem test_program :
    let b := apBase 0 0
    let s := wset w0 b [(SEQ_APWORD.WORD 0, 0x52000003), (SEQ_APWORD.WORD 1, 0x40000020), (SEQ_APWORD.WORD 2, 0x40400020),
      (SEQ_APREG.VALUE 0, 0x80000), (SEQ_APREG.VALUE 1, 0xC0000)]
    let s := s.setAg 0 0 { starts := [992] }
    let at_ (n : Nat) := (List.range n).foldl (fun s i => apClock s 0 0 (992 + i) none) s
    ((at_ 3).agUnit 0 0).fifo = [] ∧ ((at_ 4).agUnit 0 0).fifo = [0x80000] ∧
      ((at_ 14).agUnit 0 0).fifo = [0x80000, 0xC0000, 0x80020, 0xC0020, 0x80040, 0xC0040] ∧
      ((at_ 13).agUnit 0 0).fifo.length = 5 ∧ (at_ 15).rd b SEQ_APSTAT.RUN = 1 ∧ (at_ 16).rd b SEQ_APSTAT.RUN = 0 ∧
      (at_ 16).rd b SEQ_APSTAT.ERR = 0 := by decide +kernel
/-- The hash examples of R254: a domain of two stacks, with the granules at a + 0x100 and a + 0x2000. -/
theorem test_hash_two :
    let s := wset (wset w0 (hbmcBase 2) [(HBMC_DOMAIN.DMASK, 0b1100)]) (hbmcBase 3) [(HBMC_DOMAIN.DMASK, 0b1100)]
    let y := 0x4048D1
    s.hbmPlace 0x3012345600 = (3, 16, y, 0) ∧ y % 4 = 1 ∧ y / 4 % 64 = 52 ∧ y / 256 = 16456 ∧
      (s.hbmPlace 0x3012345700).1 = 3 ∧ (s.hbmPlace 0x3012345700).2.1 = 17 ∧
      (s.hbmPlace 0x3012347600).1 = 2 ∧ (s.hbmPlace 0x3012347600).2.1 = 16 ∧
      s.hbmAddr 3 16 (y * 8) = 0x3012345600 := by decide +kernel
/-- The hash example of a domain of three stacks. -/
theorem test_hash_three :
    let s := [6, 7, 8].foldl (fun s h => wset s (hbmcBase h) [(HBMC_DOMAIN.DMASK, 0b111000000)]) w0
    let y := 0x2AAAAA
    s.hbmPlace 0x7000000300 = (7, 20, y, 0) ∧ y % 4 = 2 ∧ y / 4 % 64 = 42 ∧ y / 256 = 10922 ∧
      (s.hbmPlace 0x7000000400).1 = 8 := by decide +kernel
/-- The fold of the collective example, chunk by chunk. -/
theorem test_fold :
    let a := 0x4B800000
    let o := 0x3F800000
    let m := 0xCB800000
    fadd (fadd (fadd o o) m) a = 0x40000000 ∧ fadd (fadd (fadd o m) a) o = 0x40000000 ∧
      fadd (fadd (fadd m a) o) o = 0x40000000 ∧ fadd (fadd (fadd a o) o) m = 0 := by decide +kernel
/-- The endpoint-ID examples of 00 and 09. -/
theorem test_endpoint :
    let s := wset w0 (lnkBase 0) [(LNK_COORD.VALID, 1), (LNK_COORD.COORD, 37 * 512 + 2 * 64 + 3)]
    s.endpoint 9 = 0x095069 ∧ s.endpoint 19 = 0x095073 := by decide +kernel
/-- The published check values of CRC-32C and SHA-256. -/
theorem test_crc32c : crc32c [0x31, 0x32, 0x33, 0x34, 0x35, 0x36, 0x37, 0x38, 0x39] = 0xE3069283 := by decide +kernel
theorem test_sha256 : beNat (sha256 [0x61, 0x62, 0x63]) =
    0xBA7816BF8F01CFEA414140DE5DAE2223B00361A396177A9CB410FF61F20015AD := by decide +kernel

theorem test_sha384 : beNat (sha384 [0x61, 0x62, 0x63]) =
    0xCB00753F45A35E8BB5A03D699AC65007272C32AB0EDED1631A8B605A43FF5BED8086072BA1E7CC2358BAECA134C825A7 := by decide +kernel
/-- The AES-256 example of FIPS 197, and the way back. -/
theorem test_aes256 :
    let c := aesEnc (aesKeys (List.range 32)) ((List.range 16).map (fun i => 17 * i))
    beNat c = 0x8EA2B7CA516745BFEAFC49904B496089 ∧
      aesDec (aesKeys (List.range 32)) c = (List.range 16).map (fun i => 17 * i) := by decide +kernel
/-- Two cases of AES-256-GCM from its submission (McGrew and Viega): no text, and one block of zeros. -/
theorem test_gcm :
    let ks := aesKeys (List.replicate 32 0)
    let iv := List.replicate 12 0
    beNat (gcmTag ks iv [] []) = 0x530F8AFBC74536B9A963B4F1C4CB738B ∧
      beNat (gcmTag ks iv [] (beBytes 16 0xCEA7403D4D606B6E074EC5D3BAF39D18)) = 0xD0D1C8A799996BF0265B98B5D48AB919 := by
  decide +kernel
/-- Twice the base point of P-384. -/
theorem test_p384 : (ecMul 2 ecG).map Prod.fst =
    some 0x08D999057BA3D2D969260045C55B97F089025959A6F434D651D207D19FB96E9E4FE0E86EBE0E64F85B96A9C75295DF61 := by decide +kernel

/-! Witnesses: for every statement with hypotheses, a state and operands that meet them together. -/

theorem wit_StepRunsFront : ({ w0 with pending := [.snoop, .portsReady] } : State).pending = .snoop :: [.portsReady] := rfl
theorem wit_StepTicks : w0.pending = [] ∧ ({ w0 with shp := { w0.shp with failed := true } } : State).live = false ∧
    ({ w0 with shp := { w0.shp with failed := true } } : State).pending = [] := by decide +kernel

theorem wit_WorkRepeatIssues : ∀ x ∈ [(opMMA, 0), (opMMALB, 8), (opVOP, 0), (opVTR, 0), (opVCVT, 0), (opVRES, 0), (opAGLD, 0)],
    let w := word x.1 2 [(1, 136)]
    let s := wb w0 x.2 w
    s.live = true ∧ (s.queue (.cq x.2)).cur = none ∧ s.blockHead x.2 x.1 = some (0, w) ∧
      (s.tile x.2).cyc = (s.queue (.cq x.2)).sNext ∧ s.noWork x.2 w = false ∧ 2 ≤ cwREPEAT w := by decide +kernel
theorem wit_WorkLastRepeat : ∀ x ∈ [(opMMA, 0), (opMMALB, 8), (opVOP, 0), (opVTR, 0), (opVCVT, 0), (opVRES, 0), (opAGLD, 0)],
    let w := word x.1 1 [(1, 136)]
    let s := wb w0 x.2 w
    s.live = true ∧ (s.queue (.cq x.2)).cur = none ∧ s.blockHead x.2 x.1 = some (0, w) ∧
      (s.tile x.2).cyc = (s.queue (.cq x.2)).sNext ∧ s.noWork x.2 w = false ∧ cwREPEAT w = 1 ∧ isSrp w = false ∧
      (s.queue (.cq x.2)).prog = [] := by decide +kernel

/-- A tile in whose cycle 100 one item of a repeat issued in cycle 50 is due. -/
def wt (w : Nat) (f : Flight) : State :=
  w0.setT 0 { cyc := 100, pass := 50, vu := 50, flight := [f]
              reps := [{ s := 50, w := w, num := 0, r := 0, first := true, last := true, d := 0, ix := [], base := [] }] }

theorem wit_WorkLastRepeat_cycle :
    let x := 0x3F800000
    let i8 := (List.range 16).find? (fun n => fmtOf n == some .int8)
    ∀ y ∈ [(word opMMA 1 [], FlightOp.enterA, [[0x38, 0x40], [0x7F]]), (word opMMA 1 [(i8.getD 0, 128)], .enterA, [[1, 2], []]),
        (word opMMA 1 [(1, 145)], .chunk, [[x, 0], [x]]), (word opMMA 1 [(1, 146)], .chunk, [[x]]),
        (word opMMA 1 [], .total, [[0, 5], [x, x], [0, 1]]), (word opMMALB 1 [], .intTotal, [[1, 2]]),
        (word opVOP 1 [], .lanes, [[x], [x]]), (word opVTR 1 [], .lanes, [[x]]), (word opVCVT 1 [], .lanes, [[x]]),
        (word opVRES 1 [], .lanes, [[x], [x]])],
      let w := y.1
      let f : Flight := { due := 100, s := 50, g := 0, op := y.2.1, data := y.2.2 }
      let s := wt w f
      ∃ rp ∈ (s.tile 0).reps, (s.tile 0).reps.find? (fun r => r.s == f.s) = some rp ∧ rp.w = w ∧
        (∀ r ∈ (s.tile 0).reps, r.s + 1 < (s.tile 0).cyc) ∧
        (∀ n ∈ [0, 1, 2], s.bit (apBase 0 n) SEQ_APSTAT.RUN = false ∧ (s.agUnit 0 n).starts = []) ∧
        (s.tile 0).flight.filter (fun x => x.due == (s.tile 0).cyc) = [f] ∧ f.data ≠ [] ∧
        (isMatrix w = true → (beginStreams (s.tile 0) 100).pass = rp.s) ∧
        (isIntPath w = true ↔ i8 = some (mmaFA w) ∧ i8.isSome = true) ∧
        (f.op = .lanes → isVector w = true ∧ (beginStreams (s.tile 0) 100).vu = rp.s) ∧
        (∀ r ∈ f.data, r.length ≤ 96) ∧ rowsPerGroup w * f.g + f.data.length ≤ 128 ∧
        (f.op = .total → (f.data.getD 0 []).Nodup ∧ (∀ e ∈ f.data.getD 0 [], e < 12288) ∧
          96 * rowsPerGroup w * f.g + 96 * rowsPerGroup w ≤ 12288) := by decide +kernel

theorem wit_ControlIssues_start : (∀ op ∈ [opNOP, opPHASE, opSKIPIF],
      (wq w0 (.mq 0) (word op 1 []) id).readyNq (.mq 0) op = some (0, word op 1 [])) ∧
    (∀ op ∈ [opNOP, opPHASE, opSKIPIF], (wb w0 0 (word op 1 [])).blockHead 0 op = some (0, word op 1 [])) ∧
    (let s := wq w0 (.gq 0) (word opSKIPIF 1 []) id
     (s.queue (.gq 0)).prog = [] ∧ (s.queue (.gq 0)).skip = 0) := by decide +kernel
theorem wit_ControlIssues_overlay :
    let w := word opOVERLAY 1 []
    let o := { w0 with parts := [(0, { w0.part 0 with overlays := [(0, [])] })] }
    let s := wq o (.mq 0) w (fun q => { q with released := true })
    let c := wq o (.cq 0) w (fun q => { q with released := true, isOpen := true, blk := 1 })
    s.headCmd (.mq 0) = some (0, w) ∧ s.readyNq (.mq 0) opOVERLAY = some (0, w) ∧ s.qPart (.mq 0) = some 0 ∧
      cwREPEAT w ≠ 0 ∧ (s.queue (.mq 0)).released = true ∧ c.headCmd (.cq 0) = some (0, w) ∧
      c.blockHead 0 opOVERLAY = some (0, w) ∧ c.qPart (.cq 0) = some 0 ∧ (c.queue (.cq 0)).released = true ∧
      c.bit (tileBase 0) SEQ_TCTRL.PREEMPT = false := by decide +kernel
theorem wit_WaitRegisters : ∀ q ∈ [QId.cq 0, .mq 0, .gq 0, .pmq 0], ∀ thr ∈ [0, 1, 2 ^ 32 - 1],
    let w := word opWAIT 1 [(15, 128), (thr, 160)]
    let s := wq w0 q w id
    s.live = true ∧ okQueue q = true ∧ s.headCmd q = some (0, w) ∧ cwOPCODE w = opWAIT ∧ cwREPEAT w ≠ 0 ∧ s.held q = false ∧
      (s.queue q).skip = 0 ∧ s.breakAt q w 0 = false ∧ s.refuseCode q w = none ∧ s.collWaits q = false ∧
      (s.queue q).cur = none ∧ (s.queue q).wait = none ∧ (s.queue q).isOpen = false := by decide +kernel
theorem wit_WaitRegisters_two : ∀ x ∈ [(QId.cq 0, QId.mq 0), (.mq 0, .cq 1), (.mq 1, .gq 0), (.gq 0, .pmq 0)], ∀ v ∈ [5, 9],
    let w := word opWAIT 1 [(15, 128), (1, 138), (5, 160)]
    let s := (wset (wset (wq (wq w0 x.1 w id) x.2 w id) (qBase x.1) []) (qBase x.2) []).setC 0 15 { val := v }
    s.live = true ∧ okQueue x.1 = true ∧ okQueue x.2 = true ∧ qPack x.1 = 0 ∧ qPack x.2 = 0 ∧ qRank x.1 < qRank x.2 ∧
      (∀ q ∈ [x.1, x.2], s.headCmd q = some (0, w) ∧ s.held q = false ∧ (s.queue q).skip = 0 ∧ s.breakAt q w 0 = false ∧
        s.refuseCode q w = none ∧ s.collWaits q = false ∧ (s.queue q).cur = none ∧ (s.queue q).wait = none ∧
        (s.queue q).isOpen = false) ∧
      waitIDX w = 15 ∧ waitCONS w = 1 ∧ waitTHR w = 5 ∧ (s.ctr 0 15).waits = [] ∧
      s.ctrNow 0 15 = { at_ := s.nclk, val := (s.ctr 0 15).val } ∧ (s.ctrNow 0 15).rel = [] ∧
      waitTHR w ≤ (s.ctr 0 15).val ∧ (s.ctr 0 15).val < waitTHR w + waitTHR w := by decide +kernel
theorem wit_SignalSends_later :
    let w := word opSIGNAL 1 [(15, 154), (1, 192)]
    let s := (wq w0 (.gq 0) w id).setC 0 15 { val := 9, now := some { at_ := w0.nclk, val := 3, ops := [(ctrMesh, true, 9)] } }
    s.readyNq (.gq 0) opSIGNAL = some (0, w) ∧ signalKIND w = 0 ∧ signalEP w % 32 = qPack (.gq 0) ∧ signalN w ≠ 0 ∧
      (s.ctr 0 15).waits = [] ∧ (s.ctrNow 0 15).ops = [(ctrMesh, true, 9)] ∧ (s.ctrNow 0 15).rel = [] ∧
      (s.ctrNow 0 15).val + signalN w ≤ 0xFFFFFFFF ∧
      (∀ o ∈ (s.ctrNow 0 15).ops, decide (qRank (.gq 0) < o.1) = true) := by decide +kernel
theorem wit_SignalSends :
    let w := word opSIGNAL 1 [(15, 154), (1, 192)]
    let s := wq w0 (.gq 0) w id
    s.readyNq (.gq 0) opSIGNAL = some (0, w) ∧ (s.queue (.gq 0)).prog = [] ∧ cwREPEAT w = 1 ∧ signalKIND w = 0 ∧
      badDest (signalEP w) = false ∧ signalEP w % 32 < 16 ∧ signalEP w / 32 = s.coord ∧ s.bridges = 0 ∧
      (s.ctr 0 15).waits = [] ∧ (s.ctr 0 15).val + signalN w ≤ 0xFFFFFFFF ∧
      (∀ k ∈ [1, 2], let w := word opSIGNAL 1 [(k, 128)]
       signalKIND w ≠ 0 ∧ (wq w0 (.gq 0) w id).readyNq (.gq 0) opSIGNAL = some (0, w)) := by decide +kernel
theorem wit_CopiesStart_own :
    let la := scratchBase 0
    let lb := scratchBase 0 + 0x400000 - 32
    let w := word opMOVE 1 [(la, 128), (lb, 171), (32, 214)]
    let s := wq w0 (.mq 0) w id
    (s.queue (.mq 0)).prog = [] ∧ s.readyNq (.mq 0) opMOVE = some (0, w) ∧ moveLEN w = 32 ∧ slotOf s.coord = 0 ∧
      moveSRC w = la ∧ moveDST w = lb ∧ s.tilePresent 0 = true ∧ s.packPart 0 = some 0 ∧ s.bridges = 0 ∧ s.awake 0 := by
  decide +kernel
theorem wit_CopiesStart_far : ∀ out ∈ [true, false],
    let own := scratchBase 0
    let far := 2 ^ 40
    let w := word opMOVE 1 [(if out then own else far, 128), (if out then far else own, 171), (32, 214)]
    let s := wq w0 (.mq 0) w id
    s.readyNq (.mq 0) opMOVE = some (0, w) ∧ badBoard far = false ∧ badRange (far % 2 ^ 40) 32 = false ∧
      s.injectStatus (some 0) (s.boardEp far) = 0 ∧ far / 2 ^ 40 ≠ slotOf s.coord := by decide +kernel
theorem wit_CopiesStart_rcopy :
    let w := word opRCOPY 1 [(1, 233), (1, 236)]
    let s := wq w0 (.pmq 0) w id
    s.readyNq (.pmq 0) opRCOPY = some (0, w) ∧ cwREPEAT w ≠ 0 ∧ rcopyLEN32 w ≠ 0 := by decide +kernel
theorem wit_MarksAndCloses_mark :
    let w := word opMARK 1 [(7, 128)]
    let s := wq w0 (.mq 0) w id
    s.bridges = 0 ∧ s.bridges = 0 ∧ s.readyNq (.mq 0) opMARK = some (0, w) ∧ s.qPart (.mq 0) = some 0 ∧ s.rd (trcPBase 0) CEN_RCFG.WM = 0 ∧
      s.rd (trcPBase 0) CEN_RWR.COUNT - s.rd (trcPBase 0) CEN_RRD.COUNT + 64 ≤ 2 ^ ringLog (s.rd (trcPBase 0) CEN_RCFG.LOG2) 30 ∧
      s.inPartHbm 0 (s.rd (trcPBase 0) CEN_RBASE.BASE * 4096) 64 = true := by decide +kernel
theorem wit_MarksAndCloses_close : w0.accepts (.ld 0) (cenBase 0) 4 ∧ w0.live = true ∧
    (w0.phaseRec 0 63).entered = false ∧
    ((wq w0 (.cq 0) 0 id).partQueues 0).any (fun q => ((wq w0 (.cq 0) 0 id).queue q).phase == 0) = true := by decide +kernel

/-- The state in which a SAVE or RESTORE of the tile is issued, as its statement names it. -/
def s1Of (s : State) (t num w : Nat) : State :=
  closeCmd (startPrograms
      (openCmd s t num w .work ((s.queue (.cq t)).sNext + (cwREPEAT w - 1) * gapOf w + 2316)) t w (s.queue (.cq t)).sNext) t
    ((s.queue (.cq t)).sNext + (cwREPEAT w - 1) * gapOf w + ngapOf w)
    ((s.queue (.cq t)).sNext + (cwREPEAT w - 1) * gapOf w + 2316)

theorem wit_SaveRestore_save :
    let w := word opSAVE 1 [(scratchBase 1, 128)]
    let s := wb w0 0 w
    s.live = true ∧ (s.tile 0).cyc = (s.queue (.cq 0)).sNext ∧ cwREPEAT w ≠ 0 ∧ (s.queue (.cq 0)).prog = [] ∧
      s.blockHead 0 opSAVE = some (0, w) ∧
      (memWrite (s1Of s 0 0 w) (.unit 0) (saveADDR w) (saveRecord (s1Of s 0 0 w) 0 none {})).2 = 0 := by
  intro w s
  have hl : (saveRecord (s1Of s 0 0 w) 0 none {}).length = recordSize :=
    saveRecord_length _ _ _ (by decide +kernel)
  have ha : saveADDR w = scratchBase 1 := by decide +kernel
  refine ⟨by decide +kernel, by decide +kernel, by decide +kernel, by decide +kernel, by decide +kernel, ?_⟩
  rw [memWrite_scratch _ _ 1 _ _ (by decide) (by rw [hl] <;> decide) (by rw [ha] <;> decide) (by rw [hl, ha] <;> decide), hl, ha,
    if_pos (by decide +kernel)]
  exact partWrite_scratch_ok _ _ 1 _ _ (by decide) (by decide) (by decide)

/-- Memory that holds a save record of zeros with a CRC field. -/
def recMem (v : Nat) : List Host.Cell :=
  [(scratchBase 1, 1), (scratchBase 1 + 0xFC, BitVec.ofNat 8 v), (scratchBase 1 + 0xFD, BitVec.ofNat 8 (v / 256)),
    (scratchBase 1 + 0xFE, BitVec.ofNat 8 (v / 65536)), (scratchBase 1 + 0xFF, BitVec.ofNat 8 (v / 16777216))]

/-- The CRC field that makes the record right. -/
def recCrc : Nat := crc32c (mread (recMem 0) (scratchBase 1) recordSize)

theorem crc32cBits_lt (n x : Nat) (h : x < 2 ^ 32) : crc32cBits n x < 2 ^ 32 := by
  induction n generalizing x with
  | zero => exact h
  | succ n ih =>
    apply ih
    split
    · exact Nat.xor_lt_two_pow (by omega) (by decide)
    · omega

theorem crc32c_lt (bs : List Nat) : crc32c bs < 2 ^ 32 := by
  have : ∀ (bs : List Nat) (x : Nat), x < 2 ^ 32 →
      bs.foldl (fun x b => crc32cBits 8 (Nat.xor x (b % 256))) x < 2 ^ 32 := by
    intro bs
    induction bs with
    | nil => exact fun _ h => h
    | cons b r ih => exact fun x h => ih _ (crc32cBits_lt 8 _ (Nat.xor_lt_two_pow h (by omega)))
  exact Nat.xor_lt_two_pow (this bs _ (by decide)) (by decide)

theorem recMem_at (v i : Nat) :
    (mget (recMem v) (scratchBase 1 + i)).toNat =
      if i = 0 then 1 else if i = 0xFC then v % 256 else if i = 0xFD then v / 256 % 256 else
      if i = 0xFE then v / 65536 % 256 else if i = 0xFF then v / 16777216 % 256 else 0 := by
  have e : ∀ a : Nat, (scratchBase 1 + a = scratchBase 1 + i) = (i = a) := fun a => propext (by omega)
  have e0 : (scratchBase 1 = scratchBase 1 + i) = (i = 0) := propext (by omega)
  unfold recMem mget tgetD
  rw [tget, tget, tget, tget, tget, tget]
  simp only [e, e0]
  repeat' split
  all_goals first
    | rfl
    | simp [memDefault, BitVec.toNat_ofNat]

theorem recMem_read (n v : Nat) : mread (recMem v) (scratchBase 1) n =
    (List.range n).map (fun i =>
      if i = 0 then 1 else if i = 0xFC then v % 256 else if i = 0xFD then v / 256 % 256 else
      if i = 0xFE then v / 65536 % 256 else if i = 0xFF then v / 16777216 % 256 else 0) := by
  rw [mread_eq]
  exact List.map_congr_left (fun i _ => recMem_at v i)

theorem slice_map (n off k : Nat) (f : Nat → Nat) (h : off + k ≤ n) :
    slice ((List.range n).map f) off k = (List.range k).map (fun i => f (off + i)) := by
  apply List.ext_getElem
  · simp [slice]; omega
  · intro i h1 h2
    simp [slice]

/-- The fields of the record that its check reads, for any length. -/
theorem recMem_fields (n v : Nat) (hn : 0x100 ≤ n) (hv : v < 2 ^ 32) :
    (mread (recMem v) (scratchBase 1) n).take 0xFC ++ List.replicate 4 0 ++ (mread (recMem v) (scratchBase 1) n).drop 0x100 =
      mread (recMem 0) (scratchBase 1) n ∧
    leNat (slice (mread (recMem v) (scratchBase 1) n) 0xFC 4) = v ∧
    leNat (slice (mread (recMem v) (scratchBase 1) n) 0 4) = 1 := by
  refine ⟨?_, ?_, ?_⟩
  · simp only [recMem_read]
    apply List.ext_getElem
    · simp
      omega
    · intro i h1 h2
      simp only [List.getElem_append, List.getElem_take, List.getElem_drop, List.getElem_map, List.getElem_range,
        List.getElem_replicate, List.length_append, List.length_take, List.length_map, List.length_range,
        List.length_replicate]
      repeat' split
      all_goals omega
  · rw [recMem_read, slice_map _ _ _ _ (by omega)]
    simp [show List.range 4 = [0, 1, 2, 3] from rfl, leNat]
    omega
  · rw [recMem_read, slice_map _ _ _ _ (by omega)]
    simp [show List.range 4 = [0, 1, 2, 3] from rfl, leNat]

theorem recMem_ok : recordOk (mread (recMem recCrc) (scratchBase 1) recordSize) = true := by
  obtain ⟨hz, hc, h1⟩ := recMem_fields recordSize recCrc (by decide) (crc32c_lt _)
  unfold recordOk
  rw [hz, hc, h1, mread_length]
  have e : crc32c (mread (recMem 0) (scratchBase 1) recordSize) = recCrc := recCrc.eq_1.symm
  rw [e]
  simp

theorem withMem_same (s : State) (m : List Host.Cell) (t op : Nat) :
    ({ s with mem := m } : State).live = s.live ∧ ({ s with mem := m } : State).tile t = s.tile t ∧
      (∀ q, ({ s with mem := m } : State).queue q = s.queue q) ∧
      ({ s with mem := m } : State).blockHead t op = s.blockHead t op := ⟨rfl, rfl, fun _ => rfl, rfl⟩

theorem wit_SaveRestore_restore :
    let w := word opRESTORE 1 [(scratchBase 1, 128)]
    let s : State := { wb w0 0 w with mem := recMem recCrc }
    s.live = true ∧ (s.tile 0).cyc = (s.queue (.cq 0)).sNext ∧ cwREPEAT w ≠ 0 ∧ (s.queue (.cq 0)).prog = [] ∧
      s.blockHead 0 opRESTORE = some (0, w) ∧
      (memRead s (.unit 0) (saveADDR w) recordSize).2.1 = 0 ∧
      recordOk (memRead s (.unit 0) (saveADDR w) recordSize).2.2 = true := by
  intro w s
  have ha : saveADDR w = scratchBase 1 := by decide +kernel
  have hp : s.partStatus (.unit 0) (scratchBase 1) recordSize = 0 := by decide +kernel
  have hm : s.mem = recMem recCrc := rfl
  have hs : (wb w0 0 w).live = true ∧ ((wb w0 0 w).tile 0).cyc = ((wb w0 0 w).queue (.cq 0)).sNext ∧ cwREPEAT w ≠ 0 ∧
      ((wb w0 0 w).queue (.cq 0)).prog = [] ∧ (wb w0 0 w).blockHead 0 opRESTORE = some (0, w) := by decide +kernel
  obtain ⟨e1, e2, e3, e4⟩ := withMem_same (wb w0 0 w) (recMem recCrc) 0 opRESTORE
  refine ⟨e1.trans hs.1, ?_, hs.2.2.1, ?_, e4.trans hs.2.2.2.2, ?_⟩
  · rw [e2, e3]
    exact hs.2.1
  · rw [e3]
    exact hs.2.2.2.1
  rw [ha, memRead_scratch _ _ 1 _ _ (by decide) (by decide) (by decide) (by decide), if_pos hp, hm]
  dsimp only
  exact ⟨rfl, recMem_ok⟩


theorem wit_ReplayFifoCycles_replay :
    let w := word opMMA 1 [(1, 136)]
    let s := (wq w0 (.cq 0) w (fun q => { q with cur := some { w := w, num := 0 } })).setT 0
      { cyc := 100, replay := some { hold := 4, runs := 1 } }
    s.live = true ∧ (s.tile 0).replay = some { hold := 4, runs := 1 } ∧
      (s.queue (.cq 0)).cur = some { w := w, num := 0 } ∧ (s.tile 0).cyc = 4 + 96 := by decide +kernel
theorem wit_ReplayFifoCycles_fifo : ∀ n ∈ [0, 63, 64],
    let s := w0.setT 0 { ags := [(2, { fifo := List.replicate n 7 })] }
    s.live = true ∧ s.accepts (.ld 0) (agBase 0 2 + 0x50) 8 ∧ s.awake (packOf 0) ∧
      (s.agUnit 0 2).fifo.length + (s.agUnit 0 2).kept.length = n := by decide +kernel
theorem wit_ReplayFifoCycles_wrap : ∀ n ∈ [2 ^ 48 - 1, 2 ^ 48],
    (w0.setT 0 { cyc := n, cycBase := w0.aclk 0 }).live = true ∧
      (w0.setT 0 { cyc := n, cycBase := w0.aclk 0 }).tileCycles 0 = n := by decide +kernel

/-- A tile whose address program 0 stands before a word, with loops open and FIFO entries. -/
def wap (pc w : Nat) (st : List (Nat × Nat × Nat)) (fifo : Nat) : State :=
  (wset w0 (apBase 0 0) [(SEQ_APSTAT.RUN, 1), (SEQ_APSTAT.PC, pc), (SEQ_APWORD.WORD pc, w)]).setT 0
    { cyc := 5, ags := [(0, { apNext := 4, stack := st, fifo := List.replicate fifo 0 })] }

/-- Every opcode; a LOOP of length 0, one of count 0 and one with both at their largest. -/
def apCases : List Nat := [1, 2, 3, 4, 5, 0, 6, 15].map (· * 2 ^ 28) ++
  [5 * 2 ^ 28 + 2 ^ 24, 5 * 2 ^ 28 + 2 ^ 24 + 1, 5 * 2 ^ 28 + 15 * 2 ^ 24 + 0xFFFF]

/-- No loop, within a body, at its end with passes left and on its last pass, and four loops. -/
def apStacks : List (List (Nat × Nat × Nat)) :=
  [[], [(3, 15, 2)], [(2, 3, 2)], [(2, 3, 1)], [(2, 3, 1), (1, 6, 4)], List.replicate 4 (2, 9, 2)]

theorem wit_AddressProgram : ∀ x ∈ apCases.map (fun w => (4, w, [], 0)) ++ apStacks.map (fun st => (4, 2 ^ 28, st, 0)) ++
      [(31, 2 ^ 28, [], 0), (4, 4 * 2 ^ 28, [], 63), (4, 4 * 2 ^ 28, [], 64), (4, 5 * 2 ^ 28 + 2 ^ 24 + 1, List.replicate 4 (2, 9, 2), 0)],
    let (pc, w, st, n) := x
    let s := wap pc w st n
    s.live = true ∧ (s.tile 0).reps = [] ∧ (s.tile 0).flight = [] ∧ (s.tile 0).replay = none ∧
      (s.tile 0).preempting = false ∧ (s.queue (.cq 0)).isOpen = false ∧
      (∀ m ∈ [1, 2], s.bit (apBase 0 m) SEQ_APSTAT.RUN = false ∧ (s.agUnit 0 m).starts = []) ∧
      (s.agUnit 0 0).starts = [] ∧ (s.agUnit 0 0).waitBlk = false ∧ (s.agUnit 0 0).stack = st ∧
      (s.agUnit 0 0).fifo.length + (s.agUnit 0 0).kept.length = n ∧
      s.bit (apBase 0 0) SEQ_APSTAT.RUN = true ∧ (s.agUnit 0 0).apNext + 1 = (s.tile 0).cyc ∧
      s.rd (apBase 0 0) SEQ_APSTAT.PC = pc ∧ s.apWord 0 0 pc = w := by decide +kernel

theorem wit_BlocksAndRetirement_start :
    let w := word opMMA 1 [(1, 9), (1, 136)]
    let s := (wq w0 (.cq 0) w id).setT 0 { cyc := 1 }
    s.live = true ∧ (s.queue (.cq 0)).isOpen = false ∧ s.held (.cq 0) = false ∧ (s.queue (.cq 0)).skip = 0 ∧
      (s.tile 0).replay = none ∧ (s.queue (.cq 0)).cur = none ∧ (s.tile 0).ext = [] ∧ (s.queue (.cq 0)).prog = [] ∧
      s.bit (qBase (.cq 0)) SEQ_QCTRL.HALT = false ∧ s.bit (tileBase 0) SEQ_TCTRL.PREEMPT = false ∧
      s.blockFrom (.cq 0) 64 true (s.qHead (.cq 0)) = some [w] ∧ s.cleanCount (.cq 0) 0 [w] ≠ 0 ∧
      s.firstReleased (.cq 0) w = true ∧ (s.queue (.cq 0)).sNext ≤ (s.tile 0).cyc ∧
      (s.queue (.cq 0)).drain + 1 ≤ (s.tile 0).cyc := by decide +kernel
theorem wit_BlocksAndRetirement_retire : ∀ q ∈ [QId.cq 143, .mq 0, .gq 15, .pmq 0], ∀ st ∈ [Wk.done, .skipped],
    let p : Prog := { num := 0, w := word opNOP 1 [], st := st }
    let r : List Prog := [{ num := 1, w := word opNOP 1 [] }]
    let s := (w0.setQ q { prog := p :: r }).setT 143 { cyc := 1 }
    s.live = true ∧ okQueue q = true ∧ (s.queue q).prog = p :: r ∧ (p.st = .done ∨ p.st = .skipped) ∧
      p.due < (s.tile 143).cyc ∧ (∀ x ∈ r, x.num ≠ p.num) := by decide +kernel

theorem wit_BlocksAndRetirement_effects : ∀ q ∈ [QId.cq 0, .mq 0, .gq 0, .pmq 0], ∀ v ∈ [0, 0xFFFFFFFE],
    let w := word opPHASE 1 [(1, 8), (1, 11), (15, 104), (63, 128)]
    let e := word opNOP 1 [(1, 11)]
    let p : Prog := { num := 0, w := w, st := .done }
    let s := ((wset w0 (trcPBase 0) [(TRC_ECFG.EN, 1)]).setQ q { prog := [p, { num := 1, w := e }] }).setC 0 15 { val := v }
    let s := s.setT 0 { cyc := 1 }
    s.live = true ∧ (s.queue q).prog = p :: [{ num := 1, w := e }] ∧ (∀ k, s.qPart q = some k → k = 0) ∧ s.qPart q = some 0 ∧
      cwOPCODE w = opPHASE ∧ cwREPEAT w ≠ 0 ∧ phasePHID w = 63 ∧ (s.phaseRec 0 63).started = false ∧
      s.bit (cenBase 0) CEN_PCTRL.NFEN = false ∧ cwSIG w = 1 ∧ cwSIGIDX w = 15 ∧ s.inRange (qPack q) 15 = true ∧
      (s.ctr 0 15).waits = [] ∧ (s.ctr 0 15).val < 0xFFFFFFFF ∧ (s.ctrNow 0 15).ops = [] ∧
      cwEVT e = 1 ∧ cwSIG e = 0 ∧ s.bridges = 0 ∧ s.bit (cenBase 0) CEN_PCTRL.FPDETAIL = false ∧
      s.rd (cenBase 0) CEN_PCTRL.CMODE = 0 ∧ s.bit (trcPBase 0) TRC_ECFG.EN = true ∧ s.inPartHbm 0 (s.evAt 0) 64 = true ∧
      s.rd (trcPBase 0) TRC_EWR.COUNT - s.rd (trcPBase 0) TRC_ERD.COUNT + 64 ≤
        2 ^ ringLog (s.rd (trcPBase 0) TRC_ECFG.LOG2) 24 := by decide +kernel

/-- A queue whose first ring slot awaits its fetch, with the ring in HBM or in host memory behind a link that is up. -/
def wf (q : QId) (loc : Nat) : State :=
  let s := wset w0 (qBase q) [(SEQ_QCTRL.EN, 1), (SEQ_QCTRL.RING_LOG2, 7), (SEQ_QCTRL.LOC, loc), (SEQ_QTAIL.TAIL, 1)]
  let s := wset s cxlpBase [(CXLP_LSTAT.RATE, 6)]
  wset s (cxlpLBase 0) [(CXLP_LDSTAT.OFFERED, 1), (CXLP_LDSTAT.BME, 1)]

theorem wit_FetchDelivers : ∀ q ∈ [QId.cq 0, .mq 0, .gq 0, .pmq 0],
    (wf q 0).live = true ∧ okQueue q = true ∧ (wf q 0).nextFetch q = some (0, 0, 0) ∧
      (wf q 0).rd (qBase q) SEQ_QCTRL.LOC = 0 ∧ (wf q 1).nextFetch q = some (0, 0, 0) ∧
      (wf q 1).rd (qBase q) SEQ_QCTRL.LOC ≠ 0 ∧ rowOf (scratchBase 0) ≠ 0 := by decide +kernel
/-- The same with its fetch taken by the host port. -/
def wfh (q : QId) : State :=
  { (wf q 1).setQ q { fetching := some 1 } with
    haccs := [(5, { kind := .read, len := 256, taken := 256, owner := .fetch q 0 0 })],
    hpieces := [(9, { acc := 5, off := 0, len := 256, t0 := 0 })] }
theorem wit_FetchDelivers_host : ∀ q ∈ [QId.cq 0, .mq 0, .gq 0, .pmq 0],
    (wfh q).live = true ∧ okQueue q = true ∧ tget (wfh q).hpieces 9 = some { acc := 5, off := 0, len := 256, t0 := 0 } ∧
      tget (wfh q).haccs 5 = some { kind := .read, len := 256, taken := 256, owner := .fetch q 0 0 } ∧
      (∀ y ∈ (wfh q).hpieces, y.2.acc = 5 → y.1 = 9) ∧ (List.replicate 256 0).length = 256 ∧
      (wfh q).wayFails hostStop (packStop 0) = false := by decide +kernel

theorem wit_HeadHeld : ∀ q ∈ [QId.cq 0, .mq 0, .gq 0, .pmq 0],
    (let w := 0xFF
     let s := wq w0 q w id
     s.live = true ∧ okQueue q = true ∧ s.atHead q = true ∧ s.headCmd q = some (0, w) ∧ s.refuseCode q w = some 1 ∧
       s.breakAt q w 0 = false) ∧
    (let w := word opWAIT 1 []
     let s := wset (wq w0 q w id) (qBase q) [(SEQ_QBRKTAG.TAG_EN, 1)]
     s.live = true ∧ s.atHead q = true ∧ s.headCmd q = some (0, w) ∧ s.breakAt q w 0 = true) := by decide +kernel

theorem wit_EnableHalt : ∀ q ∈ [QId.cq 0, .mq 0, .gq 0, .pmq 0],
    w0.live = true ∧ okQueue q = true ∧ w0.accepts (.ld 0) (qBase q) 4 ∧ w0.awake (qPack q) ∧
      w0.rd (qBase q) SEQ_QCTRL.EN = 0 ∧ (w0.qPart q).isSome = true ∧ w0.bridges = 0 ∧
      (let s := wq w0 q 0 id
       s.live = true ∧ s.accepts (.ld 0) (qBase q) 4 ∧ s.awake (qPack q) ∧ s.rd (qBase q) SEQ_QCTRL.EN = 1 ∧
         s.rd (qBase q) SEQ_QSTAT.FAULT = 0 ∧ s.qPart q = some 0 ∧
         s.bit (shapePBase 0) SHAPE_OVSTAT.PENDING = false ∧ (s.part 0).barrier = [] ∧
         s.rd (tileBase 0) SEQ_TCTRL.PREEMPT = 0) := by decide +kernel

theorem wit_ResumeSkip : ∀ q ∈ [QId.cq 0, .mq 0, .gq 0, .pmq 0],
    let base := fun (l : List (Field × Nat)) f => wset (wq w0 q (word opNOP 1 []) f) (qBase q) l
    let s := base [(SEQ_QSTAT.FAULT, 1)] (fun u => { u with hold := .refused })
    let s2 := base [(SEQ_QSTAT.BREAK, 1)] id
    let p : Prog := { num := 0, w := word opNOP 1 [], st := .fault 0x30 3 0 0 }
    let q2 : Prog := { num := 1, w := word opNOP 1 [] }
    let s3 := base [(SEQ_QSTAT.FAULT, 1)] (fun u => { u with hold := .after p.num, prog := [q2, p, q2] })
    (∀ u ∈ [s, s2, s3], u.live = true ∧ okQueue q = true ∧ u.accepts (.ld 0) (qBase q) 4 ∧ u.awake (qPack q)) ∧
      s.rd (qBase q) SEQ_QSTAT.FAULT = 1 ∧ (s.queue q).hold = .refused ∧ (s.queue q).prog = [] ∧
      (s.headCmd q).isSome = true ∧
      s2.rd (qBase q) SEQ_QSTAT.FAULT = 0 ∧ s2.rd (qBase q) SEQ_QSTAT.BREAK = 1 ∧ (s2.queue q).prog = [] ∧
      (s2.headCmd q).isSome = true ∧
      s3.rd (qBase q) SEQ_QSTAT.FAULT = 1 ∧ (s3.queue q).hold = .after p.num ∧ (s3.queue q).prog = [q2] ++ p :: [q2] ∧
      (∀ x ∈ [q2] ++ [q2], x.num ≠ p.num ∧ x.faulted = false) ∧
      cwOPCODE p.w ≠ opMOVE ∧ cwOPCODE p.w ≠ opRCOPY := by decide +kernel

theorem wit_TailWrite : ∀ q ∈ [QId.cq 0, .mq 0, .gq 0, .pmq 0], ∀ v ∈ [0, 1, 128, 129, 2 ^ 32 - 1],
    let s := wq w0 q (word opNOP 1 []) id
    s.live = true ∧ okQueue q = true ∧ s.accepts (.ld 0) (qBase q + 0x10) 4 ∧ s.awake (qPack q) ∧
      s.rd (qBase q) SEQ_QSTAT.FAULT = 0 ∧
      ((v + 2 ^ 32 - s.qHead q) % 2 ^ 32 ≤ 2 ^ s.rd (qBase q) SEQ_QCTRL.RING_LOG2 ↔ v ≤ 128) := by decide +kernel

theorem wit_PreemptTile_request :
    w0.accepts (.ld 0) (tileBase 0 + 0x1800) 4 ∧ w0.live = true ∧ w0.awake (packOf 0) ∧
      w0.rd (tileBase 0) SEQ_TCTRL.PREEMPT = 0 ∧ w0.rd (tileBase 0) SEQ_TCTRL.RESTORE = 0 ∧
      (w0.queue (.cq 0)).wait = none ∧ (w0.queue (.mq 0)).wait = none ∧ (w0.tile 0).preempting = false ∧
      (w0.tile 0).restoring = false ∧ w0.preemptWaits 0 = false ∧ (∀ n ∈ [0, 1, 2], (w0.agUnit 0 n).starts = []) ∧
      (w0.queue (.cq 0)).isOpen = false ∧
      (let s := w0.setQ (.cq 0) { cur := some { w := word opMMA 2 [(1, 136), (1, 153)], num := 0 }, isOpen := true }
       s.accepts (.ld 0) (tileBase 0 + 0x1800) 4 ∧ s.live = true ∧ s.awake (packOf 0) ∧ s.preemptWaits 0 = true ∧
         (s.queue (.cq 0)).wait = none) := by decide +kernel

/-- A tile whose preemption waits for its record, which goes to an address. -/
def wpre (a : Nat) : State :=
  (wset w0 (tileBase 0) [(SEQ_TCTRL.PREEMPT, 1), (SEQ_TSAVE.ADDR, a / 4096)]).setT 0 { cyc := 1, preempting := true }

theorem wit_PreemptTile_done : ∀ a ∈ [scratchBase 1, 0xC024000000],
    (wpre a).live = true ∧ (wpre a).saveReady 0 = true ∧ ((wpre a).queue (.cq 0)).drain + 1 ≤ ((wpre a).tile 0).cyc ∧
      ((wpre a).queue (.cq 0)).cur = none ∧ (wpre a).rd (tileBase 0) SEQ_TSAVE.ADDR * 4096 = a ∧
      (wpre a).rd (tileBase 0) SEQ_TCTRL.RESTORE = 0 := by decide +kernel
theorem wit_PreemptTile_written :
    (memWrite (wpre (scratchBase 1)) (.unit 0) (scratchBase 1) (saveRecord (wpre (scratchBase 1)) 0 none {})).2 = 0 := by
  have hl : (saveRecord (wpre (scratchBase 1)) 0 none {}).length = recordSize := saveRecord_length _ _ _ (by decide +kernel)
  rw [memWrite_scratch _ _ 1 _ _ (by decide) (by rw [hl] <;> decide) (by decide) (by rw [hl] <;> decide), hl,
    if_pos (by decide +kernel)]
  exact partWrite_scratch_ok _ _ 1 _ _ (by decide) (by decide) (by decide)
theorem wit_PreemptTile_failed (s : State) (bs : List Nat) (h : bs.length = recordSize) :
    (memWrite s (.unit 0) 0xC024000000 bs).2 ≠ 0 := by
  have e : badRange 0xC024000000 recordSize = true := by decide +kernel
  simp only [memWrite, memWriteU, h, e, if_true, show ¬ recordSize = 0 by decide, if_false]
  decide

theorem wit_RestoreTile_unreadable :
    let s := wset w0 (tileBase 0) [(SEQ_TSAVE.ADDR, 0xC024000000 / 4096)]
    s.live = true ∧ s.accepts (.ld 0) (tileBase 0 + 0x1800) 4 ∧ s.awake (packOf 0) ∧
      s.rd (tileBase 0) SEQ_TCTRL.PREEMPT = 0 ∧ s.rd (tileBase 0) SEQ_TCTRL.RESTORE = 0 ∧
      (memRead (s.wr (tileBase 0) SEQ_TCTRL.RESTORE 1) (.unit (packOf 0)) (s.rd (tileBase 0) SEQ_TSAVE.ADDR * 4096)
        recordSize).2.1 ≠ 0 := by decide +kernel

theorem restore_right (s : State) (m : List Host.Cell) (h1 : s.live = true) (h2 : s.accepts (.ld 0) (tileBase 0 + 0x1800) 4)
    (h3 : s.awake (packOf 0)) (h4 : s.rd (tileBase 0) SEQ_TCTRL.PREEMPT = 0) (h5 : s.rd (tileBase 0) SEQ_TCTRL.RESTORE = 0)
    (h6 : s.rd (tileBase 0) SEQ_TSAVE.ADDR * 4096 = scratchBase 1)
    (h7 : (s.wr (tileBase 0) SEQ_TCTRL.RESTORE 1).partStatus (.unit (packOf 0)) (scratchBase 1) recordSize = 0)
    (hm : recordOk (mread m (scratchBase 1) recordSize) = true) :
    ∃ u : State, u.mem = m ∧ u.live = true ∧ u.accepts (.ld 0) (tileBase 0 + 0x1800) 4 ∧ u.awake (packOf 0) ∧
      u.rd (tileBase 0) SEQ_TCTRL.PREEMPT = 0 ∧ u.rd (tileBase 0) SEQ_TCTRL.RESTORE = 0 ∧
      (let x := memRead (u.wr (tileBase 0) SEQ_TCTRL.RESTORE 1) (.unit (packOf 0)) (u.rd (tileBase 0) SEQ_TSAVE.ADDR * 4096)
         recordSize
       x.2.1 = 0 ∧ recordOk x.2.2 = true) := by
  have ha : ({ s with mem := m } : State).rd (tileBase 0) SEQ_TSAVE.ADDR * 4096 = scratchBase 1 := h6
  have hp : (({ s with mem := m } : State).wr (tileBase 0) SEQ_TCTRL.RESTORE 1).partStatus (.unit (packOf 0)) (scratchBase 1)
      recordSize = 0 := h7
  have hm' : (({ s with mem := m } : State).wr (tileBase 0) SEQ_TCTRL.RESTORE 1).mem = m := rfl
  refine ⟨{ s with mem := m }, rfl, h1, h2, h3, h4, h5, ?_⟩
  rw [ha, memRead_scratch _ _ 1 _ _ (by decide) (by decide) (by decide) (by decide), if_pos hp, hm']
  dsimp only
  exact ⟨rfl, hm⟩
theorem wit_RestoreTile_right : ∃ u : State, u.mem = recMem recCrc ∧ u.live = true ∧
    u.accepts (.ld 0) (tileBase 0 + 0x1800) 4 ∧ u.awake (packOf 0) ∧
    u.rd (tileBase 0) SEQ_TCTRL.PREEMPT = 0 ∧ u.rd (tileBase 0) SEQ_TCTRL.RESTORE = 0 ∧
    (let x := memRead (u.wr (tileBase 0) SEQ_TCTRL.RESTORE 1) (.unit (packOf 0)) (u.rd (tileBase 0) SEQ_TSAVE.ADDR * 4096)
       recordSize
     x.2.1 = 0 ∧ recordOk x.2.2 = true) :=
  restore_right (wset w0 (tileBase 0) [(SEQ_TSAVE.ADDR, scratchBase 1 / 4096)]) _ (by decide +kernel) (by decide +kernel)
    (by decide +kernel) (by decide +kernel) (by decide +kernel) (by decide +kernel) (by decide +kernel) recMem_ok
theorem wit_RestoreTile_done : (wset w0 (tileBase 0) [(SEQ_TSTAT.RESTORING, 1)]).live = true ∧
    (wset w0 (tileBase 0) [(SEQ_TSTAT.RESTORING, 1)]).rd (tileBase 0) SEQ_TSTAT.RESTORING = 1 := by decide +kernel


theorem wit_PackPreempts :
    let busy := (w0.setQ (.gq 0) { prog := [{ num := 0, w := 0 }] })
    (∀ s ∈ [w0, busy, wset w0 (packBase 0) [(SEQ_PCTRL.PREEMPT, 1)]],
      s.live = true ∧ s.accepts (.ld 0) (packBase 0 + 0x800) 4 ∧ s.awake 0 ∧ (s.queue (.gq 0)).wait = none ∧
        (s.queue (.pmq 0)).wait = none) ∧
      w0.packStopped 0 = true ∧ busy.packStopped 0 = false ∧ w0.rd (packBase 0) SEQ_PCTRL.PREEMPT = 0 ∧
      (wset w0 (packBase 0) [(SEQ_PCTRL.PREEMPT, 1)]).rd (packBase 0) SEQ_PCTRL.PREEMPT = 1 := by decide +kernel

theorem wit_CounterOps : ∀ i ∈ [0, 15],
    w0.inRange 0 (i + 16) = false ∧ w0.packPart 1 = none ∧
    (∀ v ∈ [0, 0xFFFFFFFE, 0xFFFFFFFF], let s := w0.setC 0 i { val := v }
      s.live = true ∧ s.packPart 0 = some 0 ∧ s.bit (cenBase 0) CEN_PCTRL.NFEN = false ∧ s.inRange 0 i = true ∧
        (s.ctr 0 i).waits = [] ∧ (s.ctrNow 0 i).ops = [] ∧ ((s.ctr 0 i).val + 1 ≤ 0xFFFFFFFF ↔ v ≠ 0xFFFFFFFF)) ∧
    (∀ q ∈ [QId.cq 0, .mq 0, .gq 0, .pmq 0], ∀ cons ∈ [true, false],
      let w : WaitReg := { idx := i, thr := 6, cons := cons, time := 0, at_ := 0, left := 0, released := false }
      let s := (w0.setC 0 i { val := 5, waits := [q] }).setQ q { wait := some w }
      s.live = true ∧ okQueue q = true ∧ (s.ctr 0 i).waits = [q] ∧ (s.queue q).wait = some w ∧ w.released = false ∧
        w.thr ≤ (s.ctr 0 i).val + 1 ∧
        (s.ctr 0 i).val + 1 ≤ 0xFFFFFFFF) ∧
    (let s := w0.setC 0 i { val := 5, now := some { at_ := w0.nclk, ops := [(qRank (.cq 0), false, 5)] } }
     (s.ctrNow 0 i).ops = [(qRank (.cq 0), false, 5)] ∧ (s.ctrNow 0 i).ops.any (fun o => decide (ctrMesh < o.1)) = false) := by
  decide +kernel

theorem wit_LeashHowl_leash : ∀ q ∈ [QId.cq 0, .mq 0, .gq 0, .pmq 0], ∀ e ∈ [5, 2 ^ 26 - 1], ∀ st ∈ [0, 1],
    let s := wset (wq w0 q 0 id) (qBase q) [(SEQ_QLEASH.EN, 1), (SEQ_QLEASH.LIMIT, 5), (SEQ_QLSTAT.ELAPSED, e), (SEQ_QLEASH.STOP, st)]
    s.live = true ∧ okQueue q = true ∧ s.qPart q = some 0 ∧ s.leashRuns q = true ∧
      s.leashLimit q ≤ s.rd (qBase q) SEQ_QLSTAT.ELAPSED ∧ s.bit (qBase q) SEQ_QLEASH.STOP = (st == 1) := by decide +kernel
theorem wit_LeashHowl_howl : w0.live = true ∧ w0.packPart 0 = some 0 ∧ w0.accepts (.ld 0) (syncBase 0 + 8) 4 ∧
    (w0.part 0).howl = none ∧
    ((w0.setP 0 { w0.part 0 with howl := some (2, 0, 1000, false) }).part 0).howl.isSome = true := by decide +kernel

/-- A Howl that its writer finishes: one whose first write failed or not. -/
def whowl (bad : Bool) : State := w0.setP 0 { w0.part 0 with howl := some (2, 0, 1000, bad) }

theorem howlBytes_length (h : Nat × Nat × Nat × Bool) : ((whowl false).howlBytes 0 1 h 0).length = 73728 := by
  have hq : (((whowl false).partQueues 0).foldr (fun q r => (whowl false).howlQueue q ++ r) []).length = 2560 := by decide +kernel
  have hc : ((List.range 16).foldr (fun c r => (whowl false).howlColl 0 c ++ r) []).length = 4096 := by decide +kernel
  have hr : ((whowl false).howlRets 0).length = 384 := by decide +kernel
  have ht : (((whowl false).partPacks 0).foldr (fun p r => (whowl false).howlCtrs p ++ r) []).length = 8192 := by decide +kernel
  simp only [State.howlBytes, List.length_append, padTo_length, leBytes_length, List.length_replicate, hq, hc, hr, ht,
    List.length_cons, List.length_nil]
  rfl

theorem tget_none {α : Type} (l : Tbl α) (k : Nat) (h : ∀ x ∈ l, x.1 ≠ k) : tget l k = none := by
  induction l with
  | nil => rfl
  | cons x l ih =>
    rw [tget, if_neg (h x List.mem_cons_self)]
    exact ih (fun y hy => h y (List.mem_cons_of_mem _ hy))

theorem whowl_quiet (k : Nat) : (whowl false).bit (cenBase k) CEN_PCTRL.NFEN = false := by
  have h : ∀ x ∈ (whowl false).regs, x.1 % 64 ≠ 4 ∨ x.1 < cenBase 0 * 64 := by decide +kernel
  have hn : tget (whowl false).regs (fkey (cenBase k) CEN_PCTRL.NFEN) = none := by
    refine tget_none _ _ (fun x hx => ?_)
    have := h x hx
    simp only [fkey, cenBase, CEN_PCTRL.NFEN] at *
    omega
  simp only [State.bit, State.rd, tgetD, hn]
  rfl

theorem wit_LeashHowl_done : ((whowl true).part 0).howl = some (2, 0, 1000, true) ∧
    (let s := whowl false
     let h := (2, 0, 1000, false)
     let a := s.howlSlot 0 1
     let bytes := s.howlBytes 0 1 h 0
     let w1 := memWrite s .kennel (a + 0x1000) (bytes.drop 0x1000)
     s.live = true ∧ (s.part 0).howl = some h ∧ (s.part 0).howls + 1 = 1 ∧ w1.2 = 0 ∧
       (memWrite w1.1 .kennel a (bytes.take 0x1000)).2 = 0) ∧
    (let s := wset (whowl false) (hbmcBase 0) [(HBMC_DOMAIN.VALID, 0)]
     s.live = true ∧ ∀ bs, bs.length = 69632 → (memWrite s .kennel (s.howlSlot 0 1 + 0x1000) bs).2 ≠ 0) := by
  have hl := howlBytes_length (2, 0, 1000, false)
  have hq := whowl_quiet
  have hd : (((whowl false).howlBytes 0 1 (2, 0, 1000, false) 0).drop 0x1000).length = 69632 := by rw [List.length_drop, hl]
  have ht : (((whowl false).howlBytes 0 1 (2, 0, 1000, false) 0).take 0x1000).length = 0x1000 := by
    rw [List.length_take, hl]
    rfl
  refine ⟨by decide +kernel, ⟨by decide +kernel, by decide +kernel, by decide +kernel, ?_, ?_⟩, by decide +kernel, fun bs hb => ?_⟩
  · rw [memWrite_hbm _ _ _ _ (by rw [hd]; decide) (by rw [hd]; decide +kernel) (by decide +kernel) (by rw [hd]; decide +kernel)
      (by decide +kernel) (by rw [hd]), hd]
    decide +kernel
  · rw [memWrite_hbm _ _ _ _ (by rw [ht]; decide) (by rw [ht]; decide +kernel) (by decide +kernel) (by rw [ht]; decide +kernel)
      (by decide +kernel) (by rw [ht]), ht,
      memWrite_hbm_status _ _ _ _ (by rw [hd]; decide) (by rw [hd]; decide +kernel) (by decide +kernel)
        (by rw [hd]; decide +kernel) (by decide +kernel) (by rw [hd]) hq]
    decide +kernel
  · rw [memWrite_hbm _ _ _ _ (by rw [hb]; decide) (by rw [hb]; decide +kernel) (by decide +kernel) (by rw [hb]; decide +kernel)
      (by decide +kernel) (by rw [hb]), hb]
    decide +kernel

theorem wit_LowBitRefused : ∀ t ∈ [0, 7],
    let w := word opMMALB 1 []
    let s := wq w0 (.cq t) w id
    s.live = true ∧ t % 9 ≠ 8 ∧ cwOPCODE w = opMMALB ∧ envReserved w = false ∧ cwREPEAT w ≤ 2 ^ 20 ∧
      (∀ n ∈ agsUsed w, amOf w n ≠ 3 ∧ s.modeOn (.cq t) (amOf w n) = true) ∧ ¬ (2 ∈ agsUsed w ∧ cwAM2 w = 2) ∧ cwSIG w ≠ 1 ∧
      s.headCmd (.cq t) = some (0, w) ∧ (s.queue (.cq t)).isOpen = false ∧ (s.queue (.cq t)).cur = none ∧
      s.atHead (.cq t) = true ∧ s.breakAt (.cq t) w 0 = false := by decide +kernel

theorem wit_LoadStore_scratch : ∀ c ∈ [Src.ld 0, .unit 0], ∀ x ∈ [(scratchBase 0, 1), (scratchBase 0, 0x400000), (scratchBase 8 + 0x3FFFFF, 1)],
    w0.live = true ∧ x.1 < 2 ^ 43 ∧ 0 < x.2 ∧ w0.slotOfAccess c x.1 = slotOf w0.coord ∧
      (∃ t ∈ [0, 8], w0.tilePresent t = true ∧ w0.packPart (packOf t) = some 0 ∧ w0.mayReach (askSrc c) 0 = true ∧ w0.bridges = 0 ∧
        w0.awake (packOf t) ∧ scratchBase t ≤ x.1 % 2 ^ 40 ∧ x.1 % 2 ^ 40 + x.2 ≤ scratchBase t + 0x400000) := by decide +kernel
theorem wit_LoadStore_reserved : ∀ a ∈ [0xC024000000, 0xC03FFFFFFF, 0xC0FFFFFFFF, 2 ^ 40 - 1],
    a < 2 ^ 43 ∧ w0.slotOfAccess (.unit 0) a = slotOf w0.coord ∧ rowOf (a % 2 ^ 40) = 99 := by decide +kernel
theorem wit_LoadStore_far : ∀ c ∈ [Src.unit 0, .tile 8, .ld 0], ∀ a ∈ [2 ^ 40, 8 * 2 ^ 40 - 2 ^ 40 + 0xBFFFFFFFFF],
    a < 2 ^ 43 ∧ w0.slotOfAccess c a ≠ slotOf w0.coord ∧ w0.farStatus c a 1 = 0 ∧ (w0.farOf c).isSome = true := by
  decide +kernel

theorem wit_RegAccess : w0.live = true ∧
    (∀ x ∈ [(tileBase 0 + 4, 8), (2 ^ 40 - 8, 8), (agBase 9 0 + 8, 8)], x.1 < 2 ^ 40 ∧ w0.regStatus (askSrc (.ld 0)) x.1 x.2 true ≠ 0) ∧
    w0.accepts (.ld 0) (agBase 0 2 + 8) 8 ∧ w0.accepts (.ld 0) (tileBase 0 + 0x10) 8 ∧ w0.accepts (.ld 0) (tileBase 0) 8 ∧
    w0.awake (packOf 0) ∧ w0.admits .mgmt (hbmcBase 11 + 0x30) 8 := by decide +kernel

theorem wit_HbmSectors_denied : w0.partStatus (.unit 1) 0 32 ≠ 0 ∧ w0.partStatus (.ld 0) (2 ^ 36) 5 ≠ 0 := by decide +kernel
theorem wit_HbmSectors_read : ∀ c ∈ [Src.unit 0, .ld 0], ∀ x ∈ [0, 2 ^ 31 - 1],
    x < 12 * 2 ^ 31 ∧ w0.live = true ∧ w0.partStatus c (x * 32) 32 = 0 ∧ tget w0.herr x = none := by
  decide +kernel
/-- The code over the ciphertext of the sector: four errors beside two erasures are too many. -/
theorem wit_HbmSectors_code : rsDecode [1, 2] (wordAdd (w0.codeword 0 0) [(1, 1), (2, 1), (3, 1), (4, 1)]) = none := by
  decide +kernel
theorem wit_HbmSectors_ue : ∀ c ∈ [0, 2 ^ 48 - 2, 2 ^ 48 - 1],
    let s := wset w0 (hbmcBase 0) [(HBMC_UE_COUNT.COUNT, c), (HBMC_REMAP.MARKED 0, 2), (HBMC_REMAP.MPIN0 0, 1),
      (HBMC_REMAP.MPIN1 0, 2)]
    let p := s.hbmPlace 0
    s.live = true ∧ s.partStatus (.unit 0) 0 32 = 0 ∧ s.xtsKey 0 = w0.xtsKey 0 ∧ s.mem = w0.mem ∧ p.1 = 0 ∧ s.rd (hbmcBase 0) HBMC_UE_COUNT.COUNT = c ∧
      s.erasures p.1 p.2.1 (p.2.2.1 * 8 + p.2.2.2) = [1, 2] ∧
      s.burstErr p.1 p.2.1 (p.2.2.1 * 8 + p.2.2.2) 0 [(1, 1), (2, 1), (3, 1), (4, 1)] = [(1, 1), (2, 1), (3, 1), (4, 1)] := by
  decide +kernel
theorem wit_HbmSectors_fix : rsDecode [1, 2] (wordAdd (w0.codeword 0 0) [(1, 1), (2, 7)]) = some [(1, 1), (2, 7)] ∧
    rsDecode [1, 2] (wordAdd (w0.codeword 0 0) [(5, 3)]) = some [(5, 3)] := by decide +kernel
theorem wit_HbmSectors_ce : ∀ x ∈ [(0, 0, 0), (2 ^ 48 - 2, 0xFFFF, 1), (2 ^ 48 - 1, 0, 0)],
    let s := wset w0 (hbmcBase 0) [(HBMC_CE_COUNT.COUNT, x.1), (HBMC_PINCNT.CNT 0 5, x.2.1), (HBMC_ELOG.VALID, x.2.2),
      (HBMC_CTRL.AUTO_REMAP, 0), (HBMC_REMAP.MARKED 0, 2), (HBMC_REMAP.MPIN0 0, 1), (HBMC_REMAP.MPIN1 0, 2)]
    let p := s.hbmPlace 0
    let pos := p.2.2.1 * 8 + p.2.2.2
    s.live = true ∧ s.partStatus (.unit 0) 0 32 = 0 ∧ s.xtsKey 0 = w0.xtsKey 0 ∧ s.mem = w0.mem ∧ p.1 = 0 ∧ p.2.1 = 0 ∧
      s.erasures 0 0 pos = [1, 2] ∧ s.rd (hbmcBase 0) HBMC_CE_COUNT.COUNT = x.1 ∧
      s.burstErr 0 0 pos 0 [(5, 3)] = [(5, 3)] ∧ s.burstErr 0 0 pos 0 [(1, 1), (2, 7)] = [(1, 1), (2, 7)] ∧
      s.spareUsed 0 0 pos = false ∧ ([(5, 3)].map Prod.fst).count 5 = 1 ∧
      s.rd (hbmcBase 0) (HBMC_PINCNT.CNT 0 5) = x.2.1 ∧ s.bit (hbmcBase 0) HBMC_ELOG.VALID = (x.2.2 == 1) ∧
      s.bit (hbmcBase 0) HBMC_CTRL.CE_EVT = false ∧ s.bit (hbmcBase 0) HBMC_CTRL.AUTO_REMAP = false := by decide +kernel
theorem wit_HbmSectors_partial : ∀ e ∈ [[(5, 3)], [(1, 1), (2, 1), (3, 1), (4, 1)]], ∀ x ∈ [(0, 31), (31, 1)],
    let s := { wset w0 (hbmcBase 0) [(HBMC_CTRL.AUTO_REMAP, 0), (HBMC_REMAP.MARKED 0, 2), (HBMC_REMAP.MPIN0 0, 1),
      (HBMC_REMAP.MPIN1 0, 2)] with herr := [(0, e)] }
    let p := s.hbmPlace 0
    s.live = true ∧ s.partStatus (.unit 0) x.1 x.2 = 0 ∧ x.1 / 32 = 0 ∧ x.1 % 32 + x.2 ≤ 32 ∧ x.2 < 32 ∧ p.1 = 0 ∧ p.2.1 = 0 ∧
      tget s.herr 0 ≠ none ∧ s.burstErr 0 0 (p.2.2.1 * 8 + p.2.2.2) 0 [] = e ∧
      s.erasures 0 0 (p.2.2.1 * 8 + p.2.2.2) = [1, 2] ∧ s.xtsKey 0 = w0.xtsKey 0 ∧ s.mem = w0.mem ∧
      s.bit (hbmcBase 0) HBMC_CTRL.CE_EVT = false ∧ s.bit (hbmcBase 0) HBMC_CTRL.AUTO_REMAP = false ∧
      s.rd (hbmcBase 0) HBMC_UE_COUNT.COUNT < 2 ^ 48 - 1 := by decide +kernel
theorem wit_HbmSectors_write : ∀ x ∈ [(0, 32), (31, 1), (2 ^ 36 - 32, 32)],
    w0.partStatus (.unit 0) x.1 x.2 = 0 ∧ x.1 < 12 * 2 ^ 36 ∧ x.1 % 32 + (List.replicate x.2 7).length ≤ 32 ∧ tget w0.herr (x.1 / 32) = none := by decide +kernel

theorem wit_Scrub : ∀ pos ∈ [0, 2 ^ 31 - 1],
    let s := wset w0 (hbmcBase 0) [(HBMC_SCRUB_CTRL.EN, 1), (HBMC_SCRUB_STAT.POS, pos)]
    s.live = true ∧ s.bit (hbmcBase 0) HBMC_DOMAIN.VALID = true ∧ s.bit (hbmcBase 0) HBMC_SCRUB_CTRL.EN = true ∧
      s.rd (hbmcBase 0) HBMC_SCRUB_STAT.POS = pos ∧ s.scrubNow.contains 0 = false ∧
      tget s.herr (s.sectorAt 0 (pos / 2 ^ 26) (pos % 2 ^ 26)) = none ∧ s.accepts .mgmt (hbmcBase 0 + 0x20) 4 ∧
      ({ temp := 255 } : Cells).temp < 256 := by decide +kernel

theorem wit_Remap : ∀ pc ∈ [0, 31],
    (let s := w0
     let b := hbmcBase 0
     s.live = true ∧ s.accepts .mgmt (b + 0x2000 + 8 * pc) 4 ∧ s.rd b (HBMC_REMAP.SPARED pc) = 0 ∧
       s.rd b (HBMC_REMAP.BUSY pc) = 0 ∧ 35 ∉ s.marked 0 pc ∧ ¬ 36 < 36) ∧
    (∀ pos ∈ [0, 2 ^ 26 - 1],
      let s := { wset w0 (hbmcBase 0) [(HBMC_REMAP.BUSY pc, 1)] with remapPtr := [(pc, pos)] }
      s.live = true ∧ Memory.wf s.mem = true ∧ s.rd (hbmcBase 0) (HBMC_REMAP.BUSY pc) = 1 ∧ tgetD s.remapPtr (0 * 32 + pc) 0 = pos ∧
        tget s.herr (s.sectorAt 0 pc pos) = none) := by decide +kernel

/-- The sixteen flits of a frame, held in order. -/
def frame16 (slot : Nat) : List Flit := (List.range 16).map (fun i => { seq := i, slot := slot, fpos := i })

theorem wit_FlitReceived : ∀ st ∈ [lkCONFIRM, lkACTIVE],
    let s := wl st [] {}
    let f : Flit := {}
    s.live = true ∧ s.flows 0 = true ∧ (s.link 0).newMask = none ∧ f.crcOk = true ∧ f.fecUnc = 0 ∧ f.fecBad = false ∧ f.isNull = false ∧
      f.nak = false ∧ f.seq = (s.link 0).rxExpect ∧ f.seq ∉ (s.link 0).rxAuth ∧
      ({ f with crcOk := false } : Flit).crcOk = false ∧ ({ f with fecUnc := 1 } : Flit).fecUnc ≠ 0 ∧
      ({ f with fecBad := true } : Flit).fecBad = true ∧
      (∀ slot ∈ [0, 8], (wl st [] { rxHeld := frame16 slot, rxExpect := 16 }).flows 0 = true ∧
        (wl st [] { rxHeld := frame16 slot, rxExpect := 16 }).live = true ∧
        ((wl st [] { rxHeld := frame16 slot, rxExpect := 16 }).link 0).frameHeld slot = true) := by decide +kernel

/-- Authenticated frames of link-local packets, of which one half is pads, and of packets of one virtual channel. -/
def frameOf (slot vc typ : Nat) : List Flit :=
  (List.range 16).map (fun i =>
    { seq := i, slot := slot, fpos := i, pad := i % 2 == 1, payload := { vc := vc, hdr := some { typ := typ } } })
theorem wit_FlitReceived_frame : ∀ k ∈ [0, 56],
    let full := List.replicate k { typ := tCREDIT }
    (let s := { wl lkACTIVE [] { rxHeld := frameOf 8 31 tCREDIT, rxExpect := 16, rxAuth := [20] } with rte := { w0.rte with llq := [(0, full)] } }
     let l := s.link 0
     let ps := (((l.slotHeld 8).take 16).filter (fun f => !f.pad)).map (fun f => f.payload)
     s.live = true ∧ s.flows 0 = true ∧ l.frameHeld 8 = true ∧ (∀ p ∈ ps, p.vc = 31) ∧
       ps.map (fun p => p.hdr) = (List.replicate 8 ({ typ := tCREDIT } : Pkt)).map some ∧ localTyp tCREDIT = true ∧
       (tgetD s.rte.llq 0 []).length + 8 ≤ 64) ∧
    (∀ vc ∈ [0, 20], ∀ r ∈ [([] : Tbl Route), [(vcKey 0 vc, { port := 3, vc := vc, hdr := {} })]],
      let s := { wl lkACTIVE [] { rxHeld := frameOf 0 vc tACK, rxExpect := 16 } with rte := { w0.rte with route := r } }
      let l := s.link 0
      let ps := (((l.slotHeld 0).take 16).filter (fun f => !f.pad)).map (fun f => f.payload)
      s.live = true ∧ s.flows 0 = true ∧ l.frameHeld 0 = true ∧ ps ≠ [] ∧ (∀ p ∈ ps, p.vc = vc) ∧
        (∀ x, tget s.rte.route (vcKey 0 vc) = some x → x.port < 8)) := by decide +kernel

theorem wit_FlitSent_rewind :
    let f : Flit := { seq := 3 }
    let s := wl lkACTIVE [] { rewind := some 3, retry := [(5, f)], txSeq := 4 }
    s.live = true ∧ s.flows 0 = true ∧ (s.link 0).noticeOut = .none ∧ (s.link 0).rewind = some 3 ∧
      (s.link 0).retry.find? (fun e => e.2.seq == 3) = some (5, f) := by decide +kernel
theorem wit_FlitSent_null :
    (∀ k ∈ [({} : Link), { retry := List.replicate 2048 (0, {}) }], (wl lkACTIVE [] k).live = true ∧ (wl lkACTIVE [] k).flows 0 = true ∧
      ((wl lkACTIVE [] k).link 0).rewind = none) ∧
    ((wl lkACTIVE [] { retry := List.replicate 2048 (0, {}) }).link 0).full = true ∧
    (let s := wl lkACTIVE [] {}
     let l := s.link 0
     l.llOut = [] ∧ (chooseFlit (s.setL 0 { l with llGap := min 8 (l.llGap + 1), noticed := false }) 0).isNone) ∧
    (let s := wl lkACTIVE [] { noticeOut := .degrade 0x3F }
     s.flows 0 = true ∧ s.live = true ∧ ¬ ((s.link 0).noticeOut = .none ∨ (s.link 0).noticed = true)) := by decide +kernel
theorem wit_FlitSent_linkLocal :
    let p : Pkt := { typ := tCREDIT }
    ∀ fp ∈ [0, 14, 15],
    let s := wl lkACTIVE [] { llOut := [p], slots := [(8, { fpos := fp })] }
    s.live = true ∧ s.flows 0 = true ∧ (s.link 0).rewind = none ∧ (s.link 0).full = false ∧ (s.link 0).llOut = [p] ∧
      8 ≤ (s.link 0).llGap ∧ s.slotFree 0 8 = true ∧ ((s.link 0).slot 8).fpos = fp := by decide +kernel
theorem wit_FlitSent_pad : ∀ k ∈ [0, 8], ∀ p ∈ [1, 15],
    let s := wl lkACTIVE [] { slots := [(k, { fpos := p, opened := 0 })], retry := List.replicate 2032 (0, {}) }
    s.live = true ∧ s.flows 0 = true ∧ ((s.link 0).slot k).fpos = p ∧ (s.link 0).retry.length + 16 ≤ 2048 ∧
      ((s.link 0).slot k).opened + max 1 (s.rd (lnkBase 0) LNK_CTRL.PAD_NCLK) ≤ s.nclk ∧
      (let f : Flit := { slot := k, frame := 7, tagOpen := true }
       let v := wl lkACTIVE [(LNK_FCNT.COUNT k, 7)] { slots := [(k, { fpos := 1, opened := 0 })], retry := [(0, f)] }
       v.live = true ∧ v.flows 0 = true ∧ (v.link 0).retry = [(0, f)] ∧ v.rd (lnkBase 0) (LNK_FCNT.COUNT k) = f.frame ∧
         v.rd (lnkBase 0) (LNK_FCNT.KPH k) = f.kph ∧ ((v.link 0).slot k).fpos = 1 ∧
         ((v.link 0).slot k).opened + max 1 (v.rd (lnkBase 0) LNK_CTRL.PAD_NCLK) ≤ v.nclk) := by decide +kernel

theorem wit_LinkFails_flows : ∀ st ∈ [lkCONFIRM, lkACTIVE],
    (let s := wl st [] { retry := [(10 ^ 12 - 35000, {})], lastGood := 10 ^ 12 - 34999 }
     s.live = true ∧ s.flows 0 = true ∧ (s.link 0).retry = [(10 ^ 12 - 35000, {})] ∧ 10 ^ 12 - 35000 + usUnits 5 ≤ s.clock ∧
       s.silent 0 = false) ∧
    (wl st [] { lastGood := 10 ^ 12 - 35000 }).silent 0 = true ∧ (wl st [] {}).flows 0 = true ∧
    (∀ slot ∈ [0, 8], ((wl st [] { rxHeld := frame16 slot }).link 0).frameHeld slot = true) := by decide +kernel
theorem wit_LinkFails_training : ∀ st ∈ [lkPHY, lkALIGN, lkIDENT, lkAUTH, lkCONFIRM],
    let t := 10 ^ 12 - usUnits (trainLimit st) - 1
    let s := wl st [] { entered := t, trainStart := t }
    s.live = true ∧ (s.flows 0 = false ∨ st = lkCONFIRM) ∧ s.training 0 = true ∧ s.lkState 0 = st ∧
      (s.link 0).entered + usUnits (trainLimit (s.lkState 0)) < s.clock := by decide +kernel
theorem wit_LinkFails_width : ∀ lane ∈ [0, 5],
    let s := wl lkACTIVE [] { good := 0x3F }
    s.live = true ∧ s.lanesOn 0 = true ∧ bitAt (s.rd (lnkBase 0) LNK_STAT.RXMASK) lane = true ∧
      chooseMask (if bitAt (s.link 0).good lane then (s.link 0).good - 2 ^ lane else (s.link 0).good)
        (s.rd (lnkBase 0) LNK_CFG.MAXW) = none := by decide +kernel

theorem wit_LaneMasks_bad : ∀ st ∈ [lkIDENT, lkAUTH, lkCONFIRM, lkACTIVE], ∀ x ∈ [(0, 0x1FE), (11, 0xFF)],
    let s := wl st [] { good := 0xFFF }
    s.live = true ∧ s.lanesOn 0 = true ∧ bitAt (s.rd (lnkBase 0) LNK_STAT.RXMASK) x.1 = true ∧
      chooseMask (if bitAt (s.link 0).good x.1 then (s.link 0).good - 2 ^ x.1 else (s.link 0).good)
        (s.rd (lnkBase 0) LNK_CFG.MAXW) = some x.2 := by decide +kernel
theorem wit_LaneMasks_notice : (∀ m ∈ [0x3F, 0xFC0, 0xFF, 0xFFF], m < 4096 ∧ widthCode m ≠ 0) ∧
    (wl lkACTIVE [] {}).lanesOn 0 = true ∧ (wl lkACTIVE [] {}).live = true := by decide +kernel
theorem wit_LaneMasks_restore :
    let s := wl lkACTIVE [(LNK_CTRL.AUTO_RESTORE, 1), (LNK_LEVEL.ALINK, 2), (LNK_STAT.RXMASK, 0x3F)] { good := 0x3F }
    s.lanesOn 0 = true ∧ s.lkState 0 = lkACTIVE ∧ s.bit (lnkBase 0) LNK_CTRL.AUTO_RESTORE = true ∧ 2 ≤ s.rd (lnkBase 0) LNK_LEVEL.ALINK ∧
      (s.link 0).newMask = none ∧ chooseMask ((s.link 0).good ||| 0xFC0 % 4096) (s.rd (lnkBase 0) LNK_CFG.MAXW) = some 0xFFF ∧
      popCount (s.rd (lnkBase 0) LNK_STAT.RXMASK) < popCount 0xFFF := by decide +kernel
theorem wit_LaneMasks_deskew : (wl lkACTIVE [] { newMask := some 0x3F }).lanesOn 0 = true ∧
    ((wl lkACTIVE [] { newMask := some 0x3F }).link 0).newMask = some 0x3F := by decide +kernel

/-- The identity record of a device at a coordinate, from its port of axis X and direction − and levels 1. -/
def idRec (c : Nat) : List Nat := leBytes 4 1 ++ leBytes 4 (c * 32) ++ [1, 4, 1, 1] ++ List.replicate 12 0

theorem wit_Training :
    (∀ st ∈ [lkDETECT, lkPHY, lkALIGN, lkIDENT, lkAUTH, lkCONFIRM], (wl st [] {}).live = true ∧ (wl st [] {}).lkState 0 = st) ∧
    chooseMask (0x3F % 4096) ((wl lkALIGN [] {}).rd (lnkBase 0) LNK_CFG.MAXW) = some 0x3F ∧
    (∀ h ∈ [none, some 3], let s := wl lkPHY [] { hops := h }
     s.lkState 0 = lkPHY ∧ ((s.link 0).hops = none ∨ (s.link 0).hops = some 3)) ∧
    (∀ q ∈ [0, 1], let s := wl lkCONFIRM [(LNK_REKEY.REQ, q)] { rxCnt := [(8, 1)], txSeq := 16 }
     s.lkState 0 = lkCONFIRM ∧ (s.link 0).confirmed = true ∧ s.rd (lnkBase 0) LNK_REKEY.REQ = q ∧
       s.rd (lnkBase 0) LNK_REKEY.BUSY = 0) := by decide +kernel
/-- The modulus of an operator key made for these tests (RSA-3072, exponent 65,537). -/
def tKey : Nat :=
  0xd15a965a0ca057a0d5c8188b84899a1c1d6db793b7df67637a6179355a8034af2cfd695d475dcaa8cda0f4460b6ed56e069b8dd81e235a536c0a59a94b70233ef5fa43d0444f035f5507eed47160450f50f2ec4611cdc54b5294f5445a6489b882ad8f57839fe7535b883010816095903f963ebd3ef9ed496b6db5d2d715c32dbdca6b90ad1a55e06cd16384de96ca4236289169ca26718c47bfb927edb43b44dcea61ca4e92e4c30fd2b4ed5b4a2389a79b4402036c74d326ebc5c5af137439480581ab268159524f10af27a3593d1bdb9e1556a3ee09d18c4de65b5a6e1cf0b3eb38e17d9841cb0da4b9f8a0a0a07a1d4cc856cadcc74c78eedd0f4a8beaf8552ed2ca2beb0b95c7fddd7b4cacfcfe4e1d0d4fa3c831528d6789440ad3163e4b862db6ddd9de94fee64ad67570618f71232aee4f6e5be20b52ea6cfd3a4b39c5981d99d01655aba27ca812b88da98e49fce00ec0ef0c691de8756743acada3aacc944cad0ec30669cb6bb9eb0dd9a98c93442a21a1cfa38e34b692adc7adcf

/-- A key exchange that this end opened and follows, whose peer has sent its message and its signature. -/
def kxFull : Kx :=
  { opened := true, msg := List.replicate 32 0 ++ pointBytes ecG ++ List.replicate 8 0 ++ beBytes 384 tKey, sig := beBytes 384
      0x71a334bbcf98ddde01fd9c1e2527caf3cdc3ba2b423c81381d64dd2e85ae246f86ed15b73b09526df73e7c19c837ddcbefb82f4ea23881b8aca84d2feca1e45427ea9b36cfb324e2d8b8ee85e0358f81e6799636f171928e144c9f8bb825983149ef136032c121a73b10ad70dd17fcb451aaca12b396aec049584fb848bd4dc1ec64fbe873ed9be5e2761448c1cffdd12c78e48a8803078294bb678c055df0fc5d5e5d4dd68031f4ac1c1c43b335c87d93347a1aedab022dea0cce735bce84af00d65e84e1ed42a0fd24b09ea8d6dfeccfe47f16d3d907d567afa0df8004a9ea2792ebba4b44f7ac243e779b0c792820fbfa8afe1cab8afa7f54f629c26a0edb29dd86be8b623cad512f5be3445586fdb26fa22de933452da43e35d494f8d9c99aed2d5d41f90cac20ef1641febfae2eee08c96be200cb970821f3bbc49736ec818939d594e5435cfe2df43cfb475384e6eb1928137879caa990fa00eca412b27e478f5de3365e16bd57b23d3c4c4515e6f058f4e13b0315fbaf1527ee5cefd2 }
def kxPeer : List Nat := List.replicate 24 0

theorem kxFull_good : kxFull.full = true ∧ kxFull.good kxPeer = true := by decide +kernel
theorem wit_Training_auth :
    let s := wl lkAUTH [] { kx := some kxFull, peer := kxPeer }
    s.live = true ∧ s.lkState 0 = lkAUTH ∧ (s.link 0).kx = some kxFull ∧ (s.link 0).peer = kxPeer := by decide +kernel
theorem wit_Training_ident :
    let s := wl lkIDENT [] {}
    let b := lnkBase 0
    let r := identOf (idRec 1)
    s.lkState 0 = lkIDENT ∧ (∀ x ∈ idRec 1, x < 256) ∧ (∀ x ∈ idRec 0, x < 256) ∧ (identOf (idRec 0)).coord = s.coord ∧
      r.coord ≠ s.coord ∧ setCoordOn r.coord 0 0 = setCoordOn s.coord 0 0 ∧ s.rd b LNK_CFG.AXIS = 0 ∧ r.logical % 4 = 0 ∧
      leNat (slice (idRec 1) 0 4) = 1 ∧ leNat (slice (idRec 0) 0 4) = 1 ∧ s.orient 0 r = some 0 ∧ r.link ≤ s.rd b LNK_LEVEL.LINK + 1 ∧ s.rd b LNK_LEVEL.LINK ≤ r.link + 1 ∧
      r.coll ≤ s.rd b LNK_LEVEL.COLL + 1 ∧ s.rd b LNK_LEVEL.COLL ≤ r.coll + 1 ∧ s.bit knlBase KNL_STATE.DEBUG = false := by
  decide +kernel

theorem wit_LinkReturns :
    (let s := wl lkBACKOFF [] { entered := 10 ^ 12 - 7000000, wait := 1 }
     s.live = true ∧ s.portOn 0 = true ∧ s.lkState 0 = lkBACKOFF ∧
       (s.link 0).entered + usUnits (1000 * (s.link 0).wait) ≤ s.clock) ∧
    (let s := wl lkACTIVE [] { entered := 10 ^ 12 - 70000000000 }
     s.live = true ∧ s.lkState 0 = lkACTIVE ∧ (s.link 0).entered + usUnits 10000000 ≤ s.clock ∧ s.portOn 0 = true ∧
       s.accepts .mgmt (lnkBase 0 + 0x18) 4 ∧ s.lkState 0 ≠ lkDISABLED ∧ s.rd (lnkBase 0) LNK_CTRL.DISABLE = 0 ∧
       s.bit (lnkBase 0) LNK_COORD.VALID = true ∧ s.bit shapeBase SHAPE_STAT.LOADED = true) ∧
    (let s := wl lkHELD [] {}
     s.live = true ∧ s.lkState 0 = lkHELD ∧ s.portOn 0 = true ∧ s.accepts .mgmt (lnkBase 0 + 0x18) 4) ∧
    (let s := wl lkDISABLED [(LNK_CTRL.DISABLE, 1)] {}
     s.live = true ∧ s.accepts .mgmt (lnkBase 0 + 0x18) 4 ∧ s.rd (lnkBase 0) LNK_CTRL.DISABLE = 1 ∧ s.lkState 0 = lkDISABLED ∧
       s.bit (lnkBase 0) LNK_CFG.EN = true ∧ s.bit (lnkBase 0) LNK_COORD.VALID = true) := by decide +kernel

theorem wit_Rekeys : ∀ busy ∈ [0, 1], ∀ k ∈ [0, 8],
    let s := wl lkACTIVE [(LNK_REKEY.BUSY, busy), (LNK_FCNT.COUNT k, 2 ^ 44)] {}
    let s2 := wl lkACTIVE [(LNK_REKEY.BUSY, busy), (LNK_FCNT.COUNT k, 2 ^ 48)] {}
    s.live = true ∧ s.lkState 0 = lkACTIVE ∧ s.rd (lnkBase 0) LNK_REKEY.BUSY = busy ∧ s.accepts .mgmt (lnkBase 0 + 0x40) 4 ∧
      2 ^ s.rekeyThr 0 ≤ s.rd (lnkBase 0) (LNK_FCNT.COUNT k) ∧ s2.lkState 0 = lkACTIVE ∧
      s2.rd (lnkBase 0) (LNK_FCNT.COUNT k) = 2 ^ 48 ∧ ((s2.link 0).slot k).switch = false ∧ (s2.link 0).stalled = false ∧
      (s.link 0).kx = none ∧
      (∀ kind ∈ [1, 2, 3], ∀ more ∈ [0, 2], let p : Pkt := { body := [kind, more, 0, 7] }
       p.body.getD 0 0 = kind ∧ leNat (slice p.body 1 2) = more ∧
         ((wl lkACTIVE [] { kx := some { opened := true, msgIn := [1] } }).link 0).kx = some { opened := true, msgIn := [1] }) := by
  decide +kernel
theorem wit_Rekeys_done : ∀ key ∈ [tKey, 3],
    let s := wl lkACTIVE [(LNK_REKEY.BUSY, 1)] { kx := some kxFull, peer := kxPeer, peerKey := key }
    s.live = true ∧ s.lkState 0 = lkACTIVE ∧ s.rd (lnkBase 0) LNK_REKEY.BUSY = 1 ∧ (s.link 0).kx = some kxFull ∧
      (s.link 0).peer = kxPeer ∧ (kxFull.peerKey = (s.link 0).peerKey ↔ key = tKey) ∧
      kxFull.peerChain = (s.link 0).peerChain := by
  decide +kernel

/-- A device whose links are up with one head flit at the front of an input VC. -/
def wr_ (port vc : Nat) (h : Pkt) (route : Tbl Route) : State :=
  let s := wset (wl lkACTIVE [] {}) rteBase [(RTE_LSMAP.PORTS, 0), (RTE_LSMAP.XRING, 0), (RTE_LSMAP.YRING, 0), (RTE_LSMAP.ZRING, 0)]
  { s with rte := { inq := [(vcKey port vc, [{ vc := vc, head := true, tail := true, hdr := some h }])], route := route } }

theorem wit_Routes_eject : ∀ x ∈ [(0, 0), (8, 20)],
    let h : Pkt := { typ := tACK }
    let s := wr_ x.1 x.2 h []
    s.live = true ∧ s.bridges = 0 ∧ tget s.rte.building (vcKey x.1 x.2) = none ∧ tgetD s.rte.inq (vcKey x.1 x.2) [] = [{ vc := x.2, head := true, tail := true, hdr := some h }] ∧
      tget s.rte.route (vcKey x.1 x.2) = none ∧ s.unfinished h = [] ∧ knownTyp h.typ = true := by decide +kernel
theorem wit_Routes_adaptive : ∀ x ∈ [(1, 0), (8, 0), (8, 1)],
    let h : Pkt := { typ := tACK, dest := 32, hops := 254, axis := x.2 }
    let s := wr_ x.1 3 h []
    s.live = true ∧ h.hops < 255 ∧ (∀ a ∈ s.unfinished h, (s.productive h x.1 a).isSome = true) ∧ h.esc = false ∧
      ((x.1 ≠ 8 ∨ h.axis = 0) ∨ (x.1 = 8 ∧ h.axis = 0 + 1)) ∧ 0 ∈ s.unfinished h ∧ ¬ (h.ssp = true ∧ h.ssax = 0) ∧
      s.productive h x.1 0 = some 0 ∧ s.upPort 0 0 = some 0 ∧ 0 < s.credits 0 (adaptVc h 0) := by decide +kernel
theorem wit_Routes_lost :
    let h : Pkt := { typ := tACK, dest := 32, hops := 255 }
    let s := wr_ 1 0 h []
    s.unfinished h ≠ [] ∧ 255 ≤ h.hops ∧ h.typ ≠ tLOST ∧ h.typ < 0x30 ∧ tget s.rte.route (vcKey 1 0) = none := by decide +kernel
theorem wit_Routes_escape : ∀ down ∈ [0, 1],
    let h : Pkt := { typ := tACK, dest := 32 }
    let r : Route := { port := 0, vc := 0, hdr := h }
    let s := wset (wr_ 2 0 h [(vcKey 2 0, r)]) rteBase [(RTE_LSMAP.PORTS, down)]
    s.live = true ∧ tget s.rte.route (vcKey 2 0) = some r ∧ r.port < 8 ∧ r.granted = false ∧ h.esc = false ∧ isEsc r.vc = false ∧
      tgetD s.rte.since (vcKey 2 0) 0 + max 1 (s.rd rteBase RTE_CTRL.ESC_WAIT) ≤ s.nclk ∧ s.unfinished h = [0] ∧
      s.productive h 2 0 = some 0 ∧ s.upPort 0 0 = (if down = 0 then some 0 else none) ∧ bitAt h.ut 0 = false ∧
      s.upPort 0 (1 - 0) = some 1 := by decide +kernel

theorem wit_LinkPackets_credit : ∀ vc ∈ [0, 20],
    let p : Pkt := { typ := tCREDIT, body := [vc, 1] }
    let s := wl lkACTIVE [] {}
    s.live = true ∧ s.hears 0 p = true ∧ p.body.getD 0 0 < 21 := by decide +kernel
theorem wit_LinkPackets_lstate : ∀ x ∈ [(0, 0), (1, 0), (0, 2), (1, 2)],
    let p : Pkt := { body := [0, x.2, 0, 0, x.1, 1, 0, 0, 0] }
    let s := wl lkACTIVE [] {}
    s.hears 0 p = true ∧ p.body.getD 0 0 = 0 ∧ p.body.getD 1 0 < 3 ∧ p.body.getD 3 0 = 0 ∧
      setCoordOn (leNat (slice p.body 6 3)) (p.body.getD 1 0) 0 = setCoordOn s.coord (p.body.getD 1 0) 0 ∧
      (s.hears 0 { body := [1, 0, 0, 0] } = true ∧ s.portAxis 0 < 3) := by decide +kernel
theorem wit_LinkPackets_notice :
    let hd : Pkt := { typ := tACK, dest := 32 }
    let f : Flit := { seq := 5, slot := 7, payload := { tail := true, hdr := some hd } }
    let fr : FailRec := { port := 1, time := 0, buf := [(0, f)], heads := [], keys := [] }
    let s0 := wl lkACTIVE [] {}
    let s := { s0 with rte := { s0.rte with fails := [fr] } }
    let p : Pkt := { body := [1], xfer := 5 }
    s.live = true ∧ s.hears 0 p = true ∧ p.dest / 32 = s.coord ∧ s.rte.fails.find? (fun x => x.port == p.body.getD 0 0) = some fr ∧
      seqLt f.seq p.xfer = false ∧ f.pad = false ∧ f.slot < 8 ∧
      fr.time + usUnits (max 1 (s.rd rteBase RTE_CTRL.NOTICE_WAIT)) ≤ s.clock := by decide +kernel
theorem wit_LinkPackets_delay : ∀ vc ∈ [0, 20],
    let s0 := wl lkACTIVE [] {}
    let s := { s0 with rte := { s0.rte with owed := [(vcKey 0 vc, 3)], owedAt := [(vcKey 0 vc, s0.nclk - 128)] } }
    s.live = true ∧ s.lkState 0 = lkACTIVE ∧ tget s.rte.owedAt (vcKey 0 vc) = some (s.nclk - 128) ∧ s.nclk - 128 + 128 ≤ s.nclk ∧
      tgetD s.rte.owed (vcKey 0 vc) 0 ≠ 0 := by decide +kernel

theorem wit_PacketsServed : ∀ jd ∈ [5, 6], ∀ x ∈ [(scratchBase 0, 1), (scratchBase 0 + 0x400000 - 7168, 224)],
    let p : Pkt := { src := 32, dest := 0, collar := jd, addr := x.1, len32 := x.2, data := List.replicate (32 * x.2) 7, fep := 32 }
    w0.live = true ∧ w0.packPart (packOf 0) = some 0 ∧ w0.bridges = 0 ∧ p.src / 32 ≠ w0.coord ∧
      (p.len32 ≠ 1 ∨ p.bmask = 0xFFFFFFFF) ∧ w0.mayReach (.far p.inPort p.collar) 0 = (jd == 5) ∧ w0.tilePresent 0 = true ∧
      w0.awake (packOf 0) ∧ p.dest % 32 = packOf 0 ∧ scratchBase 0 ≤ p.addr ∧ 0 < p.len32 ∧
      p.addr + 32 * p.len32 ≤ scratchBase 0 + 0x400000 ∧ p.fep / 32 ≠ w0.coord ∧ p.data.length = 32 * p.len32 ∧
      w0.bit (cenBase 0) CEN_PCTRL.NFEN = false := by decide +kernel
theorem wit_PacketsServed_sync : ∀ i ∈ [0, 15],
    let p : Pkt := { src := 32, dest := 0, collar := 5, body := [i, 0, 0, 0, 0xFF, 0xFF, 0xFF, 0xFF] }
    w0.mayReach (.far p.inPort p.collar) 0 = true ∧ (p.len32 ≠ 1 ∨ p.bmask = 0xFFFFFFFF) ∧ leNat (slice p.body 0 2) = i ∧
      w0.inRange 0 i = true ∧ i < 1024 ∧ (w0.ctr 0 i).waits = [] ∧ p.body.getD 2 0 = 0 ∧ p.body.length = 8 ∧
      (∀ x ∈ p.body, x < 256) ∧ (w0.ctr 0 i).val + leNat (slice p.body 4 4) < 2 ^ 32 ∧
      (w0.ctrNow 0 i).ops = [] := by decide +kernel

theorem wit_Accounting : ∀ o ∈ [Owner.store, .load 0 32, .load 7 20],
    let x : Xfer := { owner := o, len := 64, acct := 32, t0 := 0 }
    let s := { w0 with xfers := [(3, x)] }
    let p : Pkt := { xfer := 3, body := leBytes 4 32 ++ [2], addr := 32, len32 := 1, data := List.replicate 32 7 }
    s.live = true ∧ s.bridges = 0 ∧ tget s.xfers p.xfer = some x ∧ x.acct + leNat (p.body.take 4) = x.len ∧ p.body.getD 4 0 < 0x10 ∧
      x.t0 + usUnits (1000 * max 1 (s.rd rteBase RTE_CTRL.XFER_TO)) ≤ s.clock ∧ tget s.xfers 4 = none := by decide +kernel

theorem wit_Telemetry :
    (let s := { w0 with rte := { w0.rte with sampled := w0.nclk - max 1 (w0.rd rteBase RTE_TELCTRL.PERIOD) } }
     s.live = true ∧ s.rte.sampled + max 1 (s.rd rteBase RTE_TELCTRL.PERIOD) ≤ s.nclk) ∧
    (let s := wset w0 rteBase [(RTE_TSNAP.TIME, 1000)]
     s.live = true ∧ s.rd rteBase RTE_TSNAP.TIME ≠ 0 ∧ s.rd rteBase RTE_TSNAP.TIME ≤ s.ns ∧
       s.rte.snapAt ≠ s.rd rteBase RTE_TSNAP.TIME) ∧
    (∀ b ∈ [[0, 0, 0, 1], [8, 20, 1, 1]], let p : Pkt := { src := 48, body := b }
     p.src % 32 = 16 ∧ p.body.getD 3 0 = 1 ∧ p.body.getD 0 0 ≤ 8 ∧ p.body.getD 1 0 < 21 ∧ p.src / 32 ≠ w0.coord) ∧
    (∀ b ∈ [[0, 0, 0, 0], [9, 20, 1, 1], [8, 21, 1, 1]], let p : Pkt := { src := 48, body := b }
     ¬ (p.src % 32 = 16 ∧ p.body.getD 3 0 = 1 ∧ p.body.getD 0 0 ≤ 8 ∧ p.body.getD 1 0 < 21)) ∧
    ({ w0 with telAt := some 0 } : State).telAt.isSome = true := by decide +kernel

theorem wit_FabricTime :
    let s := wl lkACTIVE [] {}
    let t := wset s trcBase [(TRC_TCTRL.PVALID, 1), (TRC_TCTRL.PARENT, 0)]
    let off := fun (a b c d : Int) => ((b - a) + (c - d)) / 2
    s.live = true ∧ s.lkState 0 = lkACTIVE ∧ t.lkState 0 = lkACTIVE ∧ s.bit trcBase TRC_TCTRL.PVALID = false ∧
      t.bit trcBase TRC_TCTRL.PVALID = true ∧ t.rd trcBase TRC_TCTRL.PARENT = 0 ∧ t.bit trcBase TRC_TCTRL.MASTER = false ∧
      t.rd trcBase TRC_TSTAT.STATE ≠ 3 ∧ t.tsync.locked = false ∧ 0 ≤ off 0 10 20 10 ∧
      (let u := { wset t trcBase [(TRC_TSTAT.STATE, 2)] with tsync := { t.tsync with locked := true } }
       u.rd trcBase TRC_TSTAT.STATE = 2 ∧ u.tsync.locked = true ∧ 
         1000000 < (off 0 1000001 1000001 0).natAbs ∧ (off 0 1000000 1000000 0).natAbs ≤ 1000000) ∧
      s.accepts .mgmt (trcBase + 8) 4 ∧ s.accepts .mgmt (trcBase + 0x10) 8 := by decide +kernel
theorem wit_FabricTime_lost : ∀ st ∈ [1, 2],
    let s := wset (wl lkACTIVE [] { lastGood := 10 ^ 12 - 35000 }) trcBase
      [(TRC_TCTRL.PVALID, 1), (TRC_TCTRL.PARENT, 0), (TRC_TSTAT.STATE, st)]
    s.live = true ∧ s.lkState 0 = lkACTIVE ∧ s.bit trcBase TRC_TCTRL.PVALID = true ∧ s.rd trcBase TRC_TCTRL.PARENT = 0 ∧
      s.bit trcBase TRC_TCTRL.MASTER = false ∧ s.rd trcBase TRC_TSTAT.STATE = st ∧ s.silent 0 = true ∧
      (let v := { s with rte := { s.rte with llq := [(0, [{ typ := tTIME }, { typ := tCREDIT }])] } }
       tgetD v.rte.llq 0 [] = { typ := tTIME } :: [{ typ := tCREDIT }]) := by decide +kernel
theorem wit_FabricTime_master :
    let s := { wset w0 trcBase [(TRC_TCTRL.MASTER, 1)] with tsync := { w0.tsync with since := some (10 ^ 12 - 7000000) } }
    s.live = true ∧ s.bit trcBase TRC_TCTRL.MASTER = true ∧ s.tsync.locked = false ∧ s.tsync.set_ = false ∧
      s.tsync.since = some (10 ^ 12 - 7000000) ∧ 10 ^ 12 - 7000000 + usUnits 1000 ≤ s.clock ∧ s.rd trcBase TRC_TSTAT.STATE < 2 := by
  decide +kernel

/-- A device whose partition 0 has a context 2 of its engine in some state. -/
def wcoll (x : Coll) : State := w0.setP 0 { w0.part 0 with colls := [(2, x)] }

/-- A barrier along axis X of two members (R344, R347): KIND 5, CLVL 1, GID 7, MASK 1, N_X 2. -/
def dBar : List Nat := [5, 0x10, 7, 0, 1, 4] ++ List.replicate 58 0
/-- A broadcast of 8 FP32 elements along axis X to this device as the second of two members (R344): the window in block 0,
the data to byte 2^20 of its pack's buffer. -/
def dBc : List Nat := [4, 0x1B, 7, 0, 1, 7] ++ List.replicate 10 0 ++ [8] ++ List.replicate 23 0 ++
  leBytes 5 (packBufBase 0 + 0x100000) ++ List.replicate 19 0

theorem wit_CopiesAndContexts_coll : ∀ r ∈ [0, 1, 2 ^ 20],
    let w := word opCOLL r [(packBufBase 0, 128)]
    let s := wq w0 (.gq 0) w id
    s.live = true ∧ okQueue (.gq 0) = true ∧ s.qPart (.gq 0) = some 0 ∧ s.readyNq (.gq 0) opCOLL = some (0, w) ∧
      cwREPEAT w = r ∧ (s.queue (.gq 0)).prog = [] ∧
      (let pr : Prog := { num := 4, w := w, left := r }
       let u := w0.setQ (.gq 0) { prog := [pr] }
       u.live = true ∧ u.qPart (.gq 0) = some 0 ∧ (u.queue (.gq 0)).prog = pr :: [] ∧ cwOPCODE pr.w = opCOLL ∧
         pr.left = cwREPEAT pr.w ∧ (u.part 0).copen = []) := by decide +kernel
theorem wit_CopiesAndContexts_retriever :
    let w := word opRCOPY 1 [(1, 233), (1, 236)]
    let s := (w0.setQ (.pmq 0) { prog := [{ num := 4, w := w }] }).setR 0 3 { waiting := [(.pmq 0, 4)] }
    s.live = true ∧ (s.ret 0 3).cur = none ∧ s.bridges = 0 ∧ (s.ret 0 3).waiting = [(.pmq 0, 4)] ∧
      s.progOf (.pmq 0) 4 = some { num := 4, w := w } ∧ qPack (.pmq 0) = 0 ∧ cwREPEAT w = 1 ∧
      rcopyHOST w = 1 ∧ rcopyDIR w = 0 ∧ rcopyLEN32 w ≠ 0 ∧ badRange (rcopyLADDR w) (32 * rcopyLEN32 w) = false ∧
      (let w := word opRCOPY 1 [(1, 233), (1, 236), (3, 234), (0xC024000000, 128)]
       let pr : Prog := { num := 4, w := w }
       let v := (w0.setQ (.pmq 0) { prog := [pr] }).setR 0 3 { waiting := [(.pmq 0, 4)] }
       (v.ret 0 3).waiting = (.pmq 0, 4) :: [] ∧ v.progOf (.pmq 0) 4 = some pr ∧ pr.st = .work ∧ pr.err = none ∧
         cwOPCODE w = opRCOPY ∧ cwREPEAT w = 1 ∧ rcopyHOST w = 1 ∧ rcopyDIR w = 0 ∧ rcopyRET w = 3 ∧
         badRange (rcopyLADDR w) (32 * rcopyLEN32 w) = true) := by
  decide +kernel

/-- The same with a COLL whose repeat waits for a context, its descriptor at the start of pack buffer 0. -/
def wopen0 : State :=
  let s := w0.setQ (.gq 0) { prog := [{ num := 4, w := word opCOLL 1 [(packBufBase 0, 128)] }] }
  s.setP 0 { s.part 0 with copen := [(.gq 0, 4, 0)] }
def wopen (d : List Nat) : State := { wopen0 with mem := mwrite [] (packBufBase 0) d }

theorem wit_CopiesAndContexts_open : ∀ d ∈ [dBar, List.replicate 64 0],
    let s := wopen d
    let w := word opCOLL 1 [(packBufBase 0, 128)]
    s.live = true ∧ (s.part 0).copen = [(.gq 0, 4, 0)] ∧ s.progOf (.gq 0) 4 = some { num := 4, w := w } ∧
      (List.range 16).find? (fun j => !((s.coll 0 j).isOpen)) = some 0 ∧
      s.rd (s.engine 0) COLL_STARTED.COUNT + 1 < 2 ^ 48 ∧ collDADDR w + 64 * 0 = packBufBase 0 ∧
      (s.openStatus 0 0 d = 0 ↔ d = dBar) ∧ s.collFor 0 (dGid dBar) 0 = none ∧ (s.part 0).held = [] ∧ s.keysOn 0 = true ∧
      dBarrier dBar = true ∧ (stagesOf dBar)[0]? = some (.tok, 0) ∧ 1 < dN dBar 0 ∧
      s.successor { isOpen := true, desc := dBar, part := 0 } ≠ s.coord := by decide +kernel
theorem readBuf_any (s : State) (d : List Nat) (hl : d.length = 64) (hd : ∀ x ∈ d, x < 256)
    (hs : s.partStatus (.unit 0) (packBufBase 0) 64 = 0) (ps : Tbl Part) (qs : Tbl Queue) :
    let u : State := { s with mem := mwrite [] (packBufBase 0) d, parts := ps, queues := qs }
    memRead u (.unit 0) (packBufBase 0) 64 = (u, 0, d) := by
  intro u
  have hu : u.partStatus (.unit 0) (packBufBase 0) 64 = 0 :=
    (partStatus_buf { s with mem := mwrite [] (packBufBase 0) d } (.unit 0) _ _ ps qs (by decide) rfl).trans hs
  have h := mread_mwrite_same [] (packBufBase 0) d hd
  rw [hl] at h
  rw [memRead_buf _ _ _ _ (by decide) (by decide) (by decide) (by decide) hu]
  exact congrArg (fun x => (u, 0, x)) h
theorem wit_CopiesAndContexts_desc (ps : Tbl Part) (qs : Tbl Queue) :
    (let u : State := { wopen0 with mem := mwrite [] (packBufBase 0) dBar, parts := ps, queues := qs }
     memRead u (.unit 0) (packBufBase 0) 64 = (u, 0, dBar)) ∧
    (let u : State := { wopen0 with mem := mwrite [] (packBufBase 0) (List.replicate 64 0), parts := ps, queues := qs }
     memRead u (.unit 0) (packBufBase 0) 64 = (u, 0, List.replicate 64 0)) :=
  ⟨readBuf_any wopen0 _ (by decide) (by decide) (by decide +kernel) ps qs,
    readBuf_any wopen0 _ (by decide) (by decide) (by decide +kernel) ps qs⟩

/-- A context in a barrier of two members, both of whose tokens are done, with a second stage on axis Y. -/
def dBar2 : List Nat := [5, 0x10, 7, 0, 3, 0x44] ++ List.replicate 58 0
theorem wit_CopiesAndContexts_stage :
    let x : Coll := { isOpen := true, desc := dBar2, part := 0, tokIn := 1, tokOut := 1 }
    let s := wcoll x
    let y := { x with stage := 1, tokIn := 0, tokOut := 0 }
    s.live = true ∧ s.coll 0 2 = x ∧ s.stageDone x = true ∧ dBarrier x.desc = true ∧
      (stagesOf x.desc)[x.stage + 1]? = some (.tok, 1) ∧ 1 < dN x.desc 1 ∧ x.reqs = [] ∧ s.keysOn 0 = true ∧
      s.successor y ≠ s.coord := by decide +kernel

/-- The body of a credit request or its answer for group 7, sequence number 3. -/
def reqBody (dig st x : Nat) : List Nat :=
  leBytes 2 7 ++ leBytes 2 3 ++ leBytes 4 dig ++ [st, 1, x, 0] ++ leBytes 4 65536 ++ leBytes 3 (32 + 19) ++ [0]

theorem wit_CollRequests_closed : ∀ x ∈ [(4, 0), (5, 0), (5, 63), (5, 64)],
    let p : Pkt := { src := 32 + 19, collar := x.1, body := reqBody 0 0 1 }
    let s := w0.setP 0 { w0.part 0 with held := List.replicate x.2 {} }
    s.live = true ∧ p.src / 32 ≠ s.coord ∧ s.domPart p.collar = (if x.1 = 5 then some 0 else none) ∧
      s.collFor 0 (leNat (slice p.body 0 2)) (leNat (slice p.body 2 2)) = none ∧ (s.part 0).held.length = x.2 := by
  decide +kernel
theorem wit_CollRequests_open : ∀ x ∈ [(dBc, 4, StageKind.bcast), (dBar, 9, .tok)],
    let c : Coll := { isOpen := true, desc := x.1, part := 0, gid := 7, seq := 3, digest := 4 }
    let s := wcoll c
    let p : Pkt := { src := 32 + 19, collar := 5, body := reqBody x.2.1 0 1 }
    s.live = true ∧ p.src / 32 ≠ s.coord ∧ s.domPart p.collar = some 0 ∧
      s.collFor 0 (leNat (slice p.body 0 2)) (leNat (slice p.body 2 2)) = some 2 ∧
      (leNat (slice p.body 4 4) = c.digest ↔ x.1 = dBc) ∧ c.reqs = [] ∧ collStage c = some (x.2.2, 0) ∧
      p.body.getD 8 0 ≤ c.stage := by decide +kernel
theorem wit_CollRequests_grant : ∀ st ∈ [0, 1, 2, 3, 9],
    let c : Coll := { isOpen := true, desc := dBar, part := 0, gid := 7, seq := 3, snd := { asked := true } }
    let s := wcoll c
    let p : Pkt := { src := 32 + 19, collar := 5, body := reqBody 0 0 st }
    s.live = true ∧ p.src / 32 ≠ s.coord ∧ s.domPart p.collar = some 0 ∧ s.collFor 0 7 3 = some 2 ∧ s.coll 0 2 = c ∧
      p.body.getD 8 0 = c.stage ∧ c.snd.granted = false ∧ p.body.getD 10 0 = st ∧ collStage c = some (.tok, 0) ∧
      c.tokIn = 0 ∧ c.tokOut = 0 ∧ 1 < dN c.desc 0 ∧ leNat (slice p.body 16 3) / 32 ≠ s.coord ∧ p.body.getD 9 0 < 16 := by decide +kernel
theorem wit_CollRequests_retry :
    let x : Coll := { isOpen := true, desc := dBar, part := 0, snd := { asked := true, retry := true } }
    (wcoll x).live = true ∧ (wcoll x).coll 0 2 = x ∧ (wcoll x).keysOn 0 = true ∧ (wcoll x).successor x ≠ (wcoll x).coord := by
  decide +kernel

theorem wit_CollData_data :
    let x : Coll := { isOpen := true, desc := dBc, part := 0, pack := 0, seq := 3, gid := 7 }
    let s := wcoll x
    let p : Pkt := { dest := 0, src := 32, collar := 5, xfer := 2 + 2 ^ 18 * 3, data := List.replicate 32 9, len32 := 1 }
    let size := dCount dBc * dOutSize dBc
    s.live = true ∧ s.active 0 = true ∧ s.coll 0 2 = x ∧ x.stage = 0 ∧ x.used = 0 ∧ x.got = [] ∧ p.addr = 0 ∧
      s.collTarget p (p.xfer % 16) (p.xfer / 16 % 16) (some (p.xfer / 2 ^ 18)) = some (0, 2) ∧ dAxes dBc = [0] ∧
      collStage x = some (.bcast, 0) ∧ s.rootDist dBc 0 + 1 = dN dBc 0 ∧ 0 < s.rootDist dBc 0 ∧
      p.data.length = padded size ∧ padded size ≤ 7168 ∧ (∀ y ∈ p.data, y < 256) ∧ 0 < size ∧ s.packPart x.pack = some 0 ∧
      s.bridges = 0 ∧ dWblk dBc + 2 ^ dWlog dBc ≤ 128 ∧ packBufBase x.pack ≤ dDst dBc ∧
      dDst dBc + size ≤ packBufBase x.pack + 0x800000 ∧ s.bit (cenBase 0) CEN_PCTRL.NFEN = false ∧
      s.progOf x.q x.num = none := by decide +kernel
theorem wit_CollData_token :
    let d : List Nat := [5, 0x10, 7, 0, 1, 8] ++ List.replicate 58 0
    let x : Coll := { isOpen := true, desc := d, part := 0, seq := 3, gid := 7, tokOut := 1,
                      snd := { granted := true, ep := 32 + 19, ctx := 1 } }
    let s := wcoll x
    let p : Pkt := { dest := 0, src := 32, collar := 5, xfer := 2 + 256 + 2 ^ 18 * 3 }
    s.coll 0 2 = x ∧ s.collTarget p (p.xfer % 16) (p.xfer / 16 % 16) (some (p.xfer / 2 ^ 18)) = some (0, 2) ∧
      collStage x = some (.tok, 0) ∧ p.xfer / 256 % 1024 = 1 ∧ x.tokOut = 1 ∧ x.tokIn + 1 = 1 ∧ x.toks = [] ∧ 1 + 1 < dN d 0 ∧
      x.snd.ep / 32 ≠ s.coord ∧ s.keysOn 0 = true ∧
      w0.collTarget p (p.xfer % 16) (p.xfer / 16 % 16) (some (p.xfer / 2 ^ 18)) = none ∧ w0.packPart (p.dest % 32) = some 0 := by
  decide +kernel
/-- Data at the end of a window, and the token of step 2 before that of step 1. -/
theorem wit_CollData_window : ∀ o ∈ [0, 65536 - 32],
    let x : Coll := { isOpen := true, desc := dBc, part := 0, pack := 0, seq := 3, gid := 7 }
    let s := wcoll x
    let p : Pkt := { dest := 0, src := 32, collar := 5, xfer := 2 + 2 ^ 18 * 3, data := List.replicate 32 9, len32 := 1, addr := o }
    s.live = true ∧ s.coll 0 2 = x ∧ s.collTarget p (p.xfer % 16) (p.xfer / 16 % 16) (some (p.xfer / 2 ^ 18)) = some (0, 2) ∧
      0 < p.data.length ∧ p.addr % dWindow dBc = o ∧ o + p.data.length ≤ dWindow dBc ∧
      65536 * dWblk dBc + dWindow dBc ≤ 0x800000 ∧ s.packPart x.pack = some 0 ∧ s.bridges = 0 ∧
      s.bit (cenBase 0) CEN_PCTRL.NFEN = false := by decide +kernel
theorem wit_CollData_early :
    let d : List Nat := [5, 0x10, 7, 0, 1, 8] ++ List.replicate 58 0
    let x : Coll := { isOpen := true, desc := d, part := 0, seq := 3, gid := 7, tokOut := 2, snd := { granted := true } }
    let s := wcoll x
    let p : Pkt := { dest := 0, src := 32, collar := 5, xfer := 2 + 2 * 256 + 2 ^ 18 * 3 }
    s.coll 0 2 = x ∧ s.collTarget p (p.xfer % 16) (p.xfer / 16 % 16) (some (p.xfer / 2 ^ 18)) = some (0, 2) ∧
      collStage x = some (.tok, 0) ∧ p.xfer / 256 % 1024 = 2 ∧ x.tokOut = 2 ∧ 2 < dN d 0 ∧ x.tokIn + 1 < 2 ∧
      x.tokIn + 1 ∉ x.toks := by decide +kernel
theorem wit_CollData_credit :
    let d : List Nat := [4, 0x1B, 7, 0, 1, 4] ++ List.replicate 10 0 ++ [8] ++ List.replicate 47 0
    let x : Coll := { isOpen := true, desc := d, part := 0, seq := 3, gid := 7,
                      snd := { granted := true, window := 65536, sent := 32 } }
    let s := wcoll x
    let p : Pkt := { dest := 0, src := 32, collar := 5, body := reqBody 0 0 0 |>.set 9 2 }
    s.coll 0 2 = x ∧ s.collTarget p (p.body.getD 9 0 % 16) (p.body.getD 8 0) none = some (0, 2) ∧
      x.got = [] ∧ collStage x = some (.bcast, 0) ∧ itemOf (s.stepLens x true) (x.snd.window / 2) x.snd.sent = none ∧
      s.stageDone { x with snd := { x.snd with credited := 31 } } = false := by decide +kernel
theorem wit_CollData_abort :
    let p : Pkt := { dest := 0, src := 32, collar := 5, body := reqBody 2 0 0 }
    let s := wcoll { isOpen := true, desc := dBar, part := 0, gid := 7, seq := 3 }
    s.domPart p.collar = some 0 ∧ s.collFor 0 7 3 = some 2 ∧ w0.domPart p.collar = some 0 ∧ w0.collFor 0 7 3 = none ∧
      (w0.part 0).held.length < 64 ∧ leNat (slice p.body 0 2) = 7 ∧ leNat (slice p.body 2 2) = 3 ∧
      w0.active 0 = true ∧ w0.packPart 0 = some 0 ∧ w0.accepts (.ld 0) (collBase 0) 4 := by decide +kernel

/-- An overlay without records (R391), for partition 0 and base image 0, with its CRC. -/
def tOver (id : Nat) : List Nat :=
  let h := fun c => leBytes 4 0x54485347 ++ [1, 0, 3, 1] ++ leBytes 4 64 ++ leBytes 4 0 ++ [0, id, 0, 0, 0, 0, 0, 0] ++ leBytes 4 c ++
    List.replicate 36 0
  h (crc32c (h 0))

theorem wit_Overlays_load : ∀ x ∈ [(0, 0), (15, 0), (15, 2)],
    let bs := if x.2 = 0 then tOver x.1 else tOver 0
    let s : State := { w0 with mem := mwrite [] (stagingBase 0) bs }
    s.live = true ∧ s.accepts (.ld 0) (shapePBase 0 + 0x10) 4 ∧ s.rd (shapePBase 0) SHAPE_OVSTAT.PENDING = 0 ∧
      s.overlayError 0 x.1 bs = x.2 := by decide +kernel
theorem wit_Overlays_drop : ∀ pend ∈ [0, 1],
    let s := wset w0 (shapePBase 0) [(SHAPE_OVSTAT.PENDING, pend), (SHAPE_OVSTAT.PEND_ID, 3)]
    s.accepts (.ld 0) (shapePBase 0 + 0x10) 4 ∧ s.bit (shapePBase 0) SHAPE_OVSTAT.PENDING = (pend == 1) ∧
      s.rd (shapePBase 0) SHAPE_OVSTAT.PEND_ID = 3 := by decide +kernel
theorem wit_Overlays_arrival : ∀ q ∈ [QId.cq 0, .mq 0, .gq 0, .pmq 0], ∀ other ∈ [true, false],
    let w := word opOVERLAY 1 [(3, 128)]
    let v := wset (wset w0 (shapePBase 0) [(SHAPE_OVSTAT.HELD, 8)]) (qBase (.mq 1)) [(SEQ_QCTRL.EN, if other then 1 else 0)]
    let s := (wq (v.setP 0 { v.part 0 with overlays := [(3, tOver 3)] }) q w id).setT 0 { cyc := 1 }
    s.live = true ∧ s.qPart q = some 0 ∧ s.headCmd q = some (0, w) ∧ cwOPCODE w = opOVERLAY ∧ cwREPEAT w ≠ 0 ∧ overlayOVL w = 3 ∧
      (s.queue q).atSwitch = false ∧ (s.queue q).skip = 0 ∧ s.held q = false ∧ s.breakAt q w 0 = false ∧ s.refuseCode q w = none ∧
      s.mayArrive q = true ∧ (s.part 0).barrier = [] ∧ (s.queue q).drain + 1 ≤ (s.tile 0).cyc ∧
      s.bit (shapePBase 0) SHAPE_OVSTAT.PENDING = false ∧
      (if other then s.participants 0 ≠ [q] ∧ .mq 1 ∈ s.participants 0 ∧ (s.queue (.mq 1)).arrived = false
       else s.participants 0 = [q]) ∧
      (∀ x ∈ tgetD (s.part 0).overlays 3 [], x < 256) := by decide +kernel
theorem wit_Overlays_ready : ∀ x ∈ [([], [QId.mq 0]), ([QId.mq 1], [.mq 0, .mq 1]), ([], [.mq 0, .mq 1])],
    let w := word opOVERLAY 1 [(3, 128)]
    let s := (w0.setQ (.mq 0) { prog := [{ num := 0, w := w }] }).setP 0 { w0.part 0 with barrier := x.2, ready := x.1 }
    s.live = true ∧ s.qPart (.mq 0) = some 0 ∧ (s.queue (.mq 0)).prog = [{ num := 0, w := w }] ∧ cwOPCODE w = opOVERLAY ∧
      .mq 0 ∈ (s.part 0).barrier ∧ .mq 0 ∉ (s.part 0).ready ∧ s.bit (shapePBase 0) SHAPE_OVSTAT.PENDING = false ∧
      ((∀ j ∈ (s.part 0).barrier, j ≠ .mq 0 → j ∈ (s.part 0).ready) ∨ .mq 1 ∈ (s.part 0).barrier ∧ .mq 1 ∉ (s.part 0).ready) := by
  decide +kernel

/-- A base image of one partition, with its signature (R379 to R382). -/
def imgBase : List Nat := beBytes 224 0x4753485401000101e0000000090000000000000003000000b615627500000000000000000000000000000000000000000000000000000000000000000000000001000000100000000000000000000000000000000000000002000000080000000004010502060307030000007000000000030100010001000500000000000000000000010100000000000000000000000000000000000000000000000000000000000f80000000000000000000000000000000000000000000000000000000000000000000000000000000000000000000000000000000000000000000000000 ++ beBytes 384
  0xcdee2673df5071faf0b36ee308f657f15d878caf0d5c5f2e3627dbf999c74a06567b8dc3a62a15b20bececfce9507fb3af8eb4f2d139fd38f4928249538dfcfe0ece91003287945c20860bf296fa3c5795ed2462010788416e73fdf87c36105bdb015992021778c8fa60e6fda8aabf5ff19cf30b25bec652263a684675828a8e8222a6b6a0675733155a18b3e85d957166f1502a6d5ec3142f7061caaf830203d05e0880d093be233107b9f2cdf432f170a6dcb62723573c9d5a36f1eb4cc40ea2c3ffe35520eee2a5d24bb30ab0c11e25a908a7574c1b4637ac6867f0ef41dc26e8c51b799f66d90a5d8f232f95759764d2baae9d975e9ccdf385cb23433d4fc0f810704f2a22bf8c594eef9c9c5b9e72a07cc3179da4172565bf73f423980bd4786b8f8427d2715b435f1b4cd5535aa31704976ffe66541b49e254ff45621e534b4e07ca0b5e914f35e29927a7616761fe409db9dda367ab3c3210f8164d853ac748609f8e2d20c8552cd8e08c35b61231449fc3399dbc3bf660a7db1d627c

/-- A base image of two partitions in one job domain, with its signature. -/
def imgDup : List Nat := beBytes 344 0x475348540100010158010000090000000000000004000000b03a4f7400000000000000000000000000000000000000000000000000000000000000000000000001000000100000000000000000000000000000000000000002000000080000000004010502060307030000007000000000030100010001000500000000000000000000010100000000000000000000000000000000000000000000000000000000000f8000000000000000000000000000000000000000000000000000000000000000000000000000000000000000000000000000000000000000000000000003000000700000000103020002000100050000000000000000000001020000000000000000000000000000000000000000000000000000000000000000000f800000000000000000000000000000000000000000000000000000000000000000000000000000000000000000000000000000000000000000 ++ beBytes 384
  0x1ce5887008f0fb63a488ba943656a94b3606bccfe02644604625fbaca8f000a965e249d7083bcaed4aed8fa60559c154d266b73612cc5494dbbc9e49710d303c205c8ea788f43553373cccda67c96ad500622b9c9d9c860328d4d46f82c2fdd73decd39c80c8f10e5fb3b6d81e7f098053871fd8c3a545e249f7c84047bef5223de3e2ceb95ea68d089a16c770b2e234e3ad4f505583372efa37e0bae8abcd1c0b4a326c5897eb9eecd7c07a3890817c7788db9e45fe843891a20b9a1738a470ba706ea80b2e6b3d96aa4a29feed73e87876cbee517466ac4f9b96770f9de460909d28d05a073a3af0f6b9defe3566c18370e6c1f71c17509a44b16d03051c433505a46a0a6a6eae256eb78d6bfbdaceefb406fb089ac94468c87eb44c66ccaf902ef68f41da56e9e8fcf48eca02d8b475eb8df04eeeecc9290a8bfb0c7024d8d0b3d43db875d74d7840a9cf881198eb5aa1534169fdeff81452d9f95b9890dcec7dca693cf355312c2a4a1d04ffc16f91b405d8162113c9e36afc0ec68071c0

/-- A partition request for partition 1, with its signature. -/
def imgReq : List Nat := beBytes 184 0x4753485401000201b80000000900000001000000010000008ee94a2d00000000000000000000000000000000000000000000000000000000000000000000000003000000700000000103020002000100060000000000000000000001020000000000000000000000000000000000000000000000000000000000000000000f800000000000000000000000000000000000000000000000000000000000000000000000000000000000000000000000000000000000000000 ++ beBytes 384
  0x4fcb7889a0020e473a892a24ab42552e1ca73ca6095148fa7921047a949b23c837a4aafec4b3b7ed36c8ee9f383142d5984474728ddd4601ece78a128beb8837b6c9f82efa3bb757784792ec155b53f896804e0942f987f1e99c47b9a296c3f4e73d5847f9ac3c8455abeeea160d65ab9e179f0d98679bdbab950f997022f4c777488f71cf69a50bebd891c885029aae91724cdbd67e06865dff9f5eb8cd48163b7898a77a91b4a7b220ff1c0945d1d9ba0325d063e25d85a4de284d3568032480e7c473c4c372dde4b9599fd58fbe5e9eba3dc47e87339a8cde63662238cc3bc979f9a922986703c26ed7d48dca4deac74bba09e6dbeba2699e6d537fdf066a69151c04d1f463d1c21245fcbbec1dabb75ad1dcf9c6bfc2e20f1ff2cf017f19e94839491770355d1651552bd61a2cb077d1da848aa3e22c19f551c5b1e82bb0735687709ddeb467e91f8f5d6fe6478514f9d31d1611161d42075661c904f73dfd7b62ce37998950b6d9140fa816c4115ed08a31f22acc7208d8c79dd4f9b8e1

/-- A partition request for the teardown of partition 0, with its signature. -/
def imgTear : List Nat := beBytes 184 0x4753485401000201b80000000900000000000000010000004bb05345000000000000000000000000000000000000000000000000000000000000000000000000030000007000000000000000000000000000000000000000000000000000000000000000000000000000000000000000000000000000000000000000000000000000000000000000000000000000000000000000000000000000000000000000000000000000000000000000000000000000000000000000 ++ beBytes 384
  0xab4c988f25f31f95cc8360f3d3f3f6f6dd859e47520925303cb278fe42bd6e2a4c46291600e0819a0f8ac997b0d70bec35065525b2b5d5846ab28a0636ab20c940817c91297f9652db355c7eb2cd0f8a5af09839c6d692b7ea3e2c289cd3b4782c21e698bbdca24ab64de344bb3a7489f4a6180ff73cc18c8c24e6e49a190a8d90ec358dec2bdb855f83f3e507fa0f397986af9e45029899bb6d163a0f25f5df0311946ebd60f972c9dbc8d4c0d3589e03369c8c487be7e1080e0ac1165ab4949ae35b9309d807d9004ae1d7edde3953e0e1c4ea1168ed2a48c984ef4ded314b1a62a69e06bbafed9ee337a2bb5ea18ccb961a7ad6c674a5388c613e5eeb710b7d61fe77a9698f65033c8cc4e03c097c91913e44a53d90922253996322331df9cf96e86daf58a7e4d7f910698c5dfdb51bd322ea7b57c47d07dd376cf24b64d0a8330687124c5d137f53e9c9f6f3e7cbf5af11fc1419af08fca03cea5b50369a32ade4adfb715088794d36d41b8b5bc28fe729259782022c2a47c5e075c82dcf

/-- The input of ENROLL_OPKEY for slot 1, signed with the key of slot 0. -/
def tEnroll : List Nat := [1, 0, 0, 0] ++ beBytes 384 tKey ++ beBytes 384
  0x2e014096b49e40a7094cc9481458429514730cb3a3c4e7ac47262e88f76c29f89784cee8f6495e1603b65c67c7e8ba8ecb3dd65ad4331bb283f8acc40134cc46450e9f078d2e2567d25e6c215f2d0614b1e729f182d24ffe8726f9dd14b639c76249c72843fb72a413a01d6fa757ed01cf2b5852ee518af7bbda63a28dc8e8e979a177c94d6e44a446e89cee3ebe8b00ac337e9d05a71b4ea632ef38696ac6279764641b112088ff54f8c7424afcf6fb037a4325c87ffcebb073e820b530074534d36e673ec90bc326501f3baa095a53174e273e9f4dcf0a220ade21f05b8755202670cd4f34d57118f645f97ac4645b2c7f6f894fe39e91ca1a1f09306971dbabd4ffdfde399794982018d0ddcff82f32b79c96ffc051a24c81ebe9cd49ee086dfdba58cb1ba3192d9fdcf59bbb1c8ec11b5e98012fc806f48094c985b38001866d153b44c8b754e7d867a7db0fa1222798f36711a7985deae2243f8a3616873da38e39dae7be6baa8faf7fbccd37b466bc39bd6df32baf76cc250139264aaa

/-- The input of REVOKE_OPKEY for slot 1, signed with the key of slot 0. -/
def tRevoke : List Nat := [1, 0, 0, 0] ++ beBytes 384
  0x40c1a9966f13ce112ce4f5957ed798ab6b8a7f71770da804d9964bce82ab43229419388949d0c8d418fc1f6c89732164824fa0a45a4841de861712efb1676f9955bd869a5e3251c7326ad9c56e499e8cdeffcc05e5a70be241312e2949e0b75ac46e31e1975badf009d4701ef2d6e1c6f00a39d68949cf96c8b26258eb99e368e3f018247ef48f43fbb30688703457e6c99d9e50b87fa069c46570ab086937e7388b6c224691e3e4d1b54893a35c83a8f0c5b184e44d1e2ade278a7ce9366c43a457754cbaa65aceba597d868bed961c21086f66e86ddcc759248bd997708576b5e8f833a70e094a807266aa3c8d62255256c798985c393b42e8b99483f5ad373032af0c7eedbfdd4be69e4a0409b81e2c534eb0c08c9c222c8595fdf517fd4a97eea316ada7c961e7dd0f04e9214902df5b20fb1850b6f105f4f9128b5b7337f029b3111be564774d3e3d25824a2d563bd244d5a6cc144722f5cd1358d50db90142e82efbf7750a1a7f60a6e17012dfd2c0edf0fadace5fbcbe62fa4f99daa8

/-- A device whose mailbox runs a command on an input of some length, with the key of slot 0 written. -/
def wk (op len : Nat) (bs : List Nat) : State :=
  let s := wset State.reset knlBase [(KNL_MBCMD.LEN, len), (KNL_MBSTAT.BUSY, 1)]
  { s with
    kn := { s.kn with running := some op }, ident := { s.ident with opKeys := [(0, tKey)] }
    mem := mwrite [] knlBuf bs }

/-- Kennel serves and the command has no result yet. -/
def kserves (s : State) : Bool :=
  s.rd shpBase SHP_STATE.PSTATE == 0 && !s.shp.failed && !s.shp.off && s.kn.result.isNone

theorem mbInput_wk (op n : Nat) (bs : List Nat) (hl : bs.length = n) (h : ∀ x ∈ bs, x < 256) (hm : (wk op n bs).mbLen = n) :
    (wk op n bs).mbInput = bs := by
  have e : (wk op n bs).mbInput = mread (mwrite [] knlBuf bs) knlBuf (wk op n bs).mbLen := rfl
  rw [e, hm, ← hl]
  exact mread_mwrite_same [] knlBuf bs h

theorem wit_MailboxQueries_plain : ∀ op ∈ [0x01, 0x02, 0x03, 0x45, 0x30], ∀ len ∈ [0, 1, 4],
    kserves (wk op len [1]) = true ∧ (wk op len [1]).kn.running = some op ∧
      (wk op len [1]).rd knlBase KNL_MBCMD.LEN = len := by decide +kernel
theorem wit_MailboxQueries_meas : ∀ i ∈ [0, 1, 18, 19],
    leNat (mread (wk 0x03 1 [i]).mem knlBuf 1) = i ∧ kserves (wk 0x03 1 [i]) = true := by decide +kernel
theorem wit_MailboxQueries_cert : ∀ i ∈ [0, 2 ^ 32 - 1],
    leNat (mread (wk 0x02 4 (leBytes 4 i)).mem knlBuf 4) = i ∧ kserves (wk 0x02 4 (leBytes 4 i)) = true := by decide +kernel
/-- Both sides of the end of the chain, whatever its length below the largest offset. -/
theorem wit_MailboxQueries_chain : 0 ≤ (wk 0x02 4 (leBytes 4 0)).chainLen ∧
    (∀ s : State, s.chainLen < 2 ^ 32 - 1 → ∃ i, i < 2 ^ 32 ∧ s.chainLen < i) :=
  ⟨Nat.zero_le _, fun s h => ⟨2 ^ 32 - 1, by decide, h⟩⟩
theorem wit_MailboxQueries_enroll :
    let s := wk 0x10 388 []
    let s0 := { s with ident := { s.ident with opKeys := [] } }
    kserves s = true ∧ s.kn.running = some 0x10 ∧ s.rd knlBase KNL_MBCMD.LEN = 388 ∧
      (tget s.ident.opKeys ((mread s.mem knlBuf 388).getD 0 0)).isSome ∧ s0.rd knlBase KNL_MBCMD.LEN = 388 ∧
      (mread s0.mem knlBuf 388).getD 0 0 < 4 ∧ zeros (slice (mread s0.mem knlBuf 388) 1 3) = true ∧ s0.ident.opKeys = [] ∧
      kserves s0 = true := by decide +kernel
theorem wit_MailboxQueries_signed :
    (wk 0x10 772 tEnroll).mbInput = tEnroll ∧
      (let s := wk 0x10 772 tEnroll
       kserves s = true ∧ tEnroll.getD 0 0 < 4 ∧ zeros (slice tEnroll 1 3) = true ∧ tget s.ident.opKeys (tEnroll.getD 0 0) = none ∧
         s.rd knlBase KNL_MBCMD.LEN = 772 ∧ s.signedByOther (tEnroll.getD 0 0) (tEnroll.take 388) (slice tEnroll 388 384) = true) :=
  ⟨mbInput_wk 0x10 772 tEnroll (by decide +kernel) (by decide +kernel) (by decide +kernel), by decide +kernel⟩
theorem wit_MailboxQueries_revoke :
    (wk 0x11 388 tRevoke).mbInput = tRevoke ∧
      (let s0 := wk 0x11 388 tRevoke
       let s := { s0 with ident := { s0.ident with opKeys := [(0, tKey), (1, 5)] } }
       let live := (s.ident.opKeys.filter (fun k => !(bitAt s.ident.opRev k.1))).map Prod.fst
       kserves s = true ∧ s.kn.running = some 0x11 ∧ s.rd knlBase KNL_MBCMD.LEN = 388 ∧ zeros (slice tRevoke 1 3) = true ∧
         tRevoke.getD 0 0 ∈ live ∧ 2 ≤ live.length ∧
         s.signedByOther (tRevoke.getD 0 0) (tRevoke.take 4) (slice tRevoke 4 384) = true ∧
         ¬ 2 ≤ ((s0.ident.opKeys.filter (fun k => !(bitAt s0.ident.opRev k.1))).map Prod.fst).length) :=
  ⟨mbInput_wk 0x11 388 tRevoke (by decide +kernel) (by decide +kernel) (by decide +kernel), by decide +kernel⟩

/-- An image in the buffer passes when its length is right and it passes the rows of R382. -/
theorem imageResult_ok (s : State) (bs : List Nat) (kind : Nat) (h : s.mbInput = bs) (hd : s.debug = false)
    (hl : ¬ (s.mbLen < 64 ∨ imgLength bs + 384 ≠ s.mbLen)) (hk : s.ident.opKeys.isEmpty = false)
    (hc : s.imageCheck bs kind = 0) : s.imageResult kind = (0, 0) := by
  simp only [State.imageResult, h, hd, hl, hk, hc]
  rfl

/-- The PARTITION sections of an image. -/
def secsOf (bs : List Nat) : List (List Nat) := bodiesOf ((imgSections bs).getD []) 3

theorem imageCheck_ident (s t : State) (bs : List Nat) (k : Nat) (h : s.ident = t.ident) :
    s.imageCheck bs k = t.imageCheck bs k := by
  unfold State.imageCheck State.signedByOperator
  rw [h]

set_option maxRecDepth 4000 in
theorem imgDup_ok : (wk 0x20 0 []).imageCheck imgDup 1 = 0 := by decide +kernel

theorem wset_ident (s : State) (b : Nat) (l : List (Field × Nat)) : (wset s b l).ident = s.ident := by
  unfold wset
  induction l generalizing s with
  | nil => rfl
  | cons x r ih => exact ih _

theorem wit_Images_base :
    (wk 0x20 608 imgBase).imageResult 1 = (0, 0) ∧ (wk 0x20 728 imgDup).imageResult 1 = (0, 0) ∧
      (wk 0x20 608 imgBase).mbInput = imgBase ∧ (wk 0x20 728 imgDup).mbInput = imgDup ∧
      kserves (wk 0x20 608 imgBase) = true ∧ (wk 0x20 608 imgBase).anyPart = false ∧
      distinct ((secsOf imgBase).map secJdom) = true ∧ distinct ((secsOf imgDup).map secJdom) = false ∧
      (wk 0x20 0 []).imageResult 1 = (2, 0) := by
  have h1 := mbInput_wk 0x20 608 imgBase (by decide +kernel) (by decide +kernel) (by decide +kernel)
  have h2 := mbInput_wk 0x20 728 imgDup (by decide +kernel) (by decide +kernel) (by decide +kernel)
  exact ⟨imageResult_ok _ imgBase 1 h1 (by decide +kernel) (by decide +kernel) (by decide +kernel) (by decide +kernel),
    imageResult_ok _ imgDup 1 h2 (by decide +kernel) (by decide +kernel) (by decide +kernel)
      ((imageCheck_ident _ _ imgDup 1 (by simp [wk, wset_ident])).trans imgDup_ok),
    h1, h2, by decide +kernel, by decide +kernel, by decide +kernel, by decide +kernel, by decide +kernel⟩

/-- A device with base image 9 and partition 0 on which a partition request runs. -/
def wreq (len : Nat) (bs : List Nat) (loaded : Nat) (ps : Tbl Part) (packs : Nat) : State :=
  let s := wset (wset (wk 0x21 len bs) shapeBase [(SHAPE_STAT.LOADED, loaded), (SHAPE_ID.ID, 9), (SHAPE_STAT.PARTS, 1)]) (shapePBase 0)
    [(SHAPE_PCFG.PACKS, packs), (SHAPE_PCFG.STACKS, packs), (SHAPE_PCFG.VALID, 1)]
  { s with parts := ps }

theorem imageCheck_wreq (len : Nat) (bs : List Nat) (l : Nat) (ps : Tbl Part) (pk : Nat) :
    (wreq len bs l ps pk).imageCheck bs 2 = (wk 0x21 0 []).imageCheck bs 2 :=
  imageCheck_ident _ _ _ _ (by simp [wreq, wk, wset_ident])

theorem wit_Images_request :
    (wk 0x21 0 []).imageCheck imgReq 2 = 0 ∧ (wk 0x21 0 []).imageCheck imgTear 2 = 0 ∧
    (∀ l ∈ [0, 1], ∀ ps ∈ [[], [(0, ({ life := 2, jdom := 5 } : Part))], [(0, { life := 2, jdom := 6 })], [(1, { life := 2 })]],
      ∀ pk ∈ [1, 2], (wreq 568 [] l ps pk).debug = false ∧ kserves (wreq 568 [] l ps pk) = true ∧
        (wreq 568 [] l ps pk).mbLen = 568 ∧ (wreq 568 [] l ps pk).rd shapeBase SHAPE_STAT.LOADED = l ∧
        (wreq 568 [] l ps pk).rd shapeBase SHAPE_ID.ID = 9 ∧ (wreq 568 [] l ps pk).rd (shapePBase 0) SHAPE_PCFG.PACKS = pk) ∧
    imgLength imgReq + 384 = 568 ∧ imgLength imgTear + 384 = 568 ∧ imgId imgReq = 9 ∧ imgId imgTear = 9 ∧
    (let sec := (secsOf imgReq).headD []
     secPart sec = 1 ∧ isTeardown sec = false ∧ secPacks sec = 2 ∧ secStacks sec = 2 ∧ secJdom sec = 6) ∧
    (let sec := (secsOf imgTear).headD []
     secPart sec = 0 ∧ isTeardown sec = true) :=
  ⟨by decide +kernel, by decide +kernel, by decide +kernel, by decide +kernel, by decide +kernel, by decide +kernel,
    by decide +kernel, by decide +kernel, by decide +kernel⟩
theorem wit_Images_input : (wk 0x21 568 imgReq).mbInput = imgReq ∧ (wk 0x21 568 imgTear).mbInput = imgTear :=
  ⟨mbInput_wk 0x21 568 imgReq (by decide +kernel) (by decide +kernel) (by decide +kernel), mbInput_wk 0x21 568 imgTear (by decide +kernel) (by decide +kernel) (by decide +kernel)⟩
theorem wit_Images_fill :
    let sec := (secsOf imgReq).headD []
    let x := ((secsOf imgDup).headD [])
    let s := { w0 with kn := { w0.kn with creating := [sec, x] } }
    s.live = true ∧ s.rd shpBase SHP_STATE.PSTATE = 0 ∧ s.shp.failed = false ∧ s.shp.off = false ∧ s.kn.result = none ∧
      secPart x ≠ secPart sec ∧ secNdom sec = 1 ∧ bitAt (secDom sec 0) 1 = true ∧ bitAt (secPacks sec) 1 = true ∧
      bitAt (secPacks x) 1 = false := by decide +kernel

theorem wit_FirmwareAndDebug_unlock : ∀ dbg ∈ [0, 1], ∀ len ∈ [0, 448],
    let s := wset (wk 0x31 len []) knlBase [(KNL_STATE.DEBUG, dbg)]
    kserves s = true ∧ s.kn.running = some 0x31 ∧ s.rd knlBase KNL_STATE.DEBUG = dbg ∧ s.rd knlBase KNL_MBCMD.LEN = len ∧
      s.tokenOk s.mbInput = false := by decide +kernel

/-- A debug token for unique ID 0 and a nonce of zeros, without its signature (R450). -/
def tToken : List Nat := leBytes 4 0x44544B4E ++ leBytes 4 1 ++ List.replicate 56 0
theorem wit_FirmwareAndDebug_token (sig : List Nat) (hl : sig.length = 384)
    (h : rsaVerify Config.debugKey tToken sig = true) :
    let s := { wk 0x31 448 [] with kn := { State.reset.kn with nonce := some (List.replicate 32 0) } }
    s.tokenOk (tToken ++ sig) = true := by
  have e1 : (tToken ++ sig).take 0x40 = tToken := by
    rw [List.take_append_of_le_length (by decide)]
    decide
  have e2 : slice (tToken ++ sig) 0x40 384 = sig := by
    have : tToken.length = 0x40 := by decide
    rw [slice, ← this, List.drop_left, ← hl, List.take_length]
  have e3 : ∀ off n, off + n ≤ 64 → slice (tToken ++ sig) off n = slice tToken off n := by
    intro off n hn
    have : tToken.length = 64 := by decide
    rw [slice, slice, List.drop_append_of_le_length (by omega), List.take_append_of_le_length (by simp; omega)]
  intro s
  simp only [State.tokenOk, imgField, e1, e2, h, e3 0 4 (by decide), e3 4 4 (by decide), e3 8 8 (by decide),
    e3 0x10 32 (by decide), e3 0x30 4 (by decide), e3 0x34 12 (by decide)]
  decide +kernel

theorem wit_FirmwareAndDebug_begin : ∀ x ∈ [(2, 0), (2, 4 * 2 ^ 20), (5, 1), (1, 1), (6, 1), (2, 4 * 2 ^ 20 + 1)],
    let s := wk 0x40 8 ([x.1, 0, 0, 0] ++ leBytes 4 x.2)
    kserves s = true ∧ s.rd knlBase KNL_MBCMD.LEN = 8 ∧ s.rd knlBase KNL_STATE.DEBUG = 0 ∧ s.mbInput.getD 0 0 = x.1 ∧
      imgField s.mbInput 4 4 = x.2 := by decide +kernel

/-- A block of 4 bytes asked of the host, while an image of n bytes is received. -/
def wblk (st len n i crc : Nat) (bm : Bool) : State :=
  let s := wset (wk 0x41 len (leBytes 4 i ++ leBytes 4 4 ++ leBytes 4 crc ++ [0, 0, 0, 0] ++ leBytes 8 0x1000)) cxlpBase
    [(CXLP_LSTAT.RATE, 3)]
  { s with kn := { s.kn with fwState := st, fwLen := n }, fns := [(8, { cmd := if bm then 4 else 0 })] }
theorem wit_FirmwareAndDebug_block : ∀ st ∈ [0, 1], ∀ i ∈ [0, 1], ∀ bm ∈ [true, false], ∀ crc ∈ [0, crc32c [1, 2, 3, 4]],
    let s := wblk st 24 4 i crc bm
    kserves s = true ∧ s.kn.running = some 0x41 ∧ s.rd knlBase KNL_STATE.DEBUG = 0 ∧ s.rd knlBase KNL_MBCMD.LEN = 24 ∧
      s.kn.fwState = st ∧ (i < s.fwBlockCount ↔ i = 0) ∧ imgField s.mbInput 0 4 = i ∧ imgField s.mbInput 4 4 = s.fwBlockLen 0 ∧
      bitAt (s.fn 8).cmd 2 = bm ∧ s.linkOn = true ∧ (crc32c [1, 2, 3, 4] = imgField s.mbInput 8 4 ↔ crc ≠ 0) := by
  decide +kernel
/-- The same with the block's access, bytes of it that pieces have taken, and its piece of m bytes under way. -/
def wblkAcc (bm : Bool) (taken m : Nat) : State :=
  { wblk 1 24 4 0 (crc32c [1, 2, 3, 4]) bm with
    haccs := [(6, { ld := 8, kind := .read, addr := 0x1000, len := 4, taken := taken, owner := .firmware 0 (crc32c [1, 2, 3, 4]) })]
    hpieces := if m = 0 then [] else [(9, { acc := 6, off := 0, len := m, t0 := 0 })] }
theorem wit_FirmwareAndDebug_fetch : ∀ bm ∈ [true, false], ∀ x ∈ [(0, 0), (4, 0), (2, 2), (4, 4)],
    let s := wblkAcc bm x.1 x.2
    kserves s = true ∧ s.kn.running = some 0x41 ∧ s.rd knlBase KNL_STATE.DEBUG = 0 ∧ s.rd knlBase KNL_MBCMD.LEN = 24 ∧
      s.kn.fwState = 1 ∧ 0 < s.fwBlockCount ∧ imgField s.mbInput 0 4 = 0 ∧ imgField s.mbInput 4 4 = s.fwBlockLen 0 ∧
      s.shp.warm = false ∧ s.bridges = 0 ∧ s.freeHostRet.isSome = true ∧ s.offered 8 = true ∧ bitAt (s.fn 8).cmd 2 = bm := by
  decide +kernel
theorem wit_FirmwareAndDebug_pieces : ∀ x ∈ [(0, 0), (4, 0), (2, 2), (4, 4)],
    (s : State) → s = wblkAcc true x.1 x.2 →
    s.haccs.map (fun y => (y.1, y.2.ld, y.2.status, y.2.pack, y.2.taken)) = [(6, 8, 0, 0, x.1)] ∧
      s.hpieces = (if x.2 = 0 then [] else [(9, { acc := 6, off := 0, len := x.2, t0 := 0 })]) := by
  rintro x - s rfl
  exact ⟨rfl, rfl⟩
theorem wit_Warm (s : State) (x : Shepherd) (kind : Nat) (bs : List Nat) :
    let u : State := { s with shp := x }
    u.imageResult kind = s.imageResult kind ∧ u.anyPart = s.anyPart ∧ u.mbSections = s.mbSections ∧ u.part = s.part ∧
      u.tokenOk bs = s.tokenOk bs ∧ u.mbInput = s.mbInput ∧ u.fwBlockCount = s.fwBlockCount ∧
      kserves (wk 0x20 0 []) = true ∧
      (let v := wk 0x20 0 []; kserves { v with shp := { v.shp with warm := true } } = true) :=
  ⟨rfl, rfl, rfl, rfl, rfl, rfl, rfl, by decide +kernel, by decide +kernel⟩
theorem wit_FirmwareAndDebug_verify :
    let s := { wk 0x42 0 [] with kn := { (wk 0x42 0 []).kn with fwState := 1, fwLen := 4 } }
    kserves s = true ∧ s.kn.running = some 0x42 ∧ s.rd knlBase KNL_MBCMD.LEN = 0 ∧ s.kn.fwState = 1 ∧ s.fwCheck ≠ 0 := by
  decide +kernel

/-- A Kennel image of a header and no payload, without its signature (R501). -/
def tFw : List Nat := leBytes 4 0x54484657 ++ leBytes 4 1 ++ [2, 0, 1, 1] ++ leBytes 4 2 ++ leBytes 4 0 ++ [4] ++ List.replicate 235 0
def wfw (sig : List Nat) : State :=
  { State.reset with kn := { State.reset.kn with
      running := some 0x42, fwState := 1, fwType := 2, fwLen := 640, fwBlocks := [(0, tFw ++ sig)] } }
theorem wit_FirmwareAndDebug_image (sig : List Nat)
    (h : rsaVerify Config.firmwareKey tFw sig = true) :
    (wfw sig).fwCheck = 0 := by
  have n : tFw.length = 256 := by decide +kernel
  have e1 : (tFw ++ sig).take 256 = tFw := by
    rw [List.take_append_of_le_length (by omega), ← n, List.take_length]
  have e2 : (tFw ++ sig).drop 256 = sig := by rw [← n, List.drop_left]
  have e3 : ∀ off k, off + k ≤ 256 → slice (tFw ++ sig) off k = slice tFw off k := by
    intro off k hn
    rw [slice, slice, List.drop_append_of_le_length (by omega), List.take_append_of_le_length (by simp; omega)]
  have e4 : ∀ k, k < 256 → (tFw ++ sig).getD k 0 = tFw.getD k 0 := by
    intro k hk
    simp [List.getD, List.getElem?_append_left (show k < tFw.length by omega)]
  have ei : (wfw sig).fwImage = tFw ++ sig := by simp [wfw, State.fwImage, bufBytes]
  have en : (wfw sig).kn.fwLen = 640 ∧ (wfw sig).kn.fwType = 2 ∧ (wfw sig).kn.fwBlocks.length = 1 ∧ (wfw sig).fwBlockCount = 1 ∧
      (wfw sig).ident = State.reset.ident ∧ (wfw sig).svnCount 2 = 0 ∧ (wfw sig).runImg 2 = {} :=
    ⟨rfl, rfl, rfl, by show (640 + 65535) / 65536 = 1; decide, rfl, rfl, rfl⟩
  obtain ⟨n1, n2, n3, n7, n4, n5, n6⟩ := en
  simp only [State.fwCheck, State.fwHeaderOk, ei, imgField, n1, n2, n3, n7, n4, n5, n6, e1, e2, h, e3 0 4 (by decide),
    e3 4 4 (by decide), e3 0x15 0xEB (by decide), e3 0x10 4 (by decide), e4 8 (by decide), e4 9 (by decide), e4 0xA (by decide),
    e4 0xB (by decide), e4 0x14 (by decide), Nat.reduceSub]
  decide +kernel
theorem wit_FirmwareAndDebug_activate : ∀ d ∈ [0, 1],
    let s := { wk 0x43 32 [] with kn := { (wk 0x43 32 []).kn with fwState := 2, fwType := 2, fwDigest := List.replicate 32 d } }
    kserves s = true ∧ s.kn.running = some 0x43 ∧ s.rd knlBase KNL_MBCMD.LEN = 32 ∧ s.kn.fwState = 2 ∧
      (s.mbInput = s.kn.fwDigest ↔ d = 0) := by decide +kernel
theorem wit_FirmwareAndDebug_done :
    (∀ op ∈ [0x43, 0xFF], ∀ r ∈ [none, some (0, 0, [1, 2])],
      let s := { wk op 0 [] with kn := { (wk op 0 []).kn with result := r, fwType := 2, fwNew := some ({ svn := 1 }, true) } }
      s.rd shpBase SHP_STATE.PSTATE = 0 ∧ s.shp.failed = false ∧ s.shp.off = false ∧ s.kn.running = some op ∧ s.kn.creating = [] ∧
        s.kn.deferWarm = false ∧ s.kn.deferParts = [] ∧ s.kn.result = r) ∧
    (let s0 := wk 0x31 448 []
     let s := { s0 with parts := [(0, { life := 3 })], kn := { s0.kn with result := some (0, 0, []) } }
     s.rd shpBase SHP_STATE.PSTATE = 0 ∧ s.kn.running = some 0x31 ∧ s.kn.creating = [] ∧ s.kn.fwNew = none ∧
       s.kn.result = some (0, 0, []) ∧ (s.part 0).life = 3 ∧
       (∀ op ∈ [0x21, 0x31], let u := { s with shp := { s.shp with warm := true }, kn := { s.kn with running := some op } }
        u.rd shpBase SHP_STATE.PSTATE = 0 ∧ u.shp.warm = true ∧ u.tearing ≠ [] ∧ u.kn.running = some op ∧ u.kn.deferWarm = false ∧
          u.kn.deferParts = [])) ∧
    mbAssigned 0xFF = false ∧ kserves (wk 0x44 0 []) = true ∧ kserves (wk 0x44 1 []) = true := by decide +kernel

/-- A device whose host link is up. -/
def wh0 : State := wset w0 cxlpBase [(CXLP_LSTAT.RATE, 3)]

theorem wit_ResetsAndPower_commands :
    let busy := wq w0 (.cq 0) 0 id
    w0.live = true ∧ w0.accepts .mgmt (shpBase + 8) 4 ∧ w0.dozeBusy = false ∧ busy.live = true ∧
      busy.accepts .mgmt (shpBase + 8) 4 ∧ busy.dozeBusy = true ∧ w0.shp.off = false ∧ w0.shp.p12v = true ∧ w0.kn.fwState ≠ 3 ∧
      ({ w0 with kn := { w0.kn with fwState := 3 } } : State).live = true ∧ w0.imgCode 3 = 0 ∧ w0.imgCode 4 = 0 ∧
      w0.imgCode 5 = 0 ∧ w0.shp.perst = false ∧ w0.mayWake = false ∧ w0.rd shpBase SHP_STATE.PSTATE = 0 ∧
      wh0.linkOn = true ∧ wh0.kn.deferWarm = false ∧
      (∀ code ∈ [({} : Boot), { chans := [(1, 4), (1, 28)], pins := [(0, 0, 35), (11, 31, 0)] }],
        code.code ≠ 10 ∧ w0.bootCode code [2, 3, 4, 5] = 0) ∧ w0.bootCode { chans := [(1, 4), (1, 28), (1, 0)] } [2, 3, 4, 5] ≠ 0 := by
  decide +kernel
theorem wit_ResetsAndPower_entry :
    (let s := { wh0 with xfers := [(0, {})] }
     w0.inFlight = false ∧ s.live = true ∧ s.inFlight = true ∧ s.dozeBusy = false ∧ s.hostOpen = true ∧
       s.accepts .mgmt (shpBase + 8) 4) ∧
    (let s0 := wset w0 shpBase [(SHP_WAKE.PIN, 1), (SHP_WAKE.PERST, 1)]
     let s := { s0 with shp := { s0.shp with dozing := 1, perst := true } }
     s.mayWake = false ∧ s.rd shpBase SHP_WAKE.PIN = 1 ∧ s.rd shpBase SHP_WAKE.PERST = 1 ∧ s.shp.dozing ≠ 0 ∧
       s.shp.dozeWake = none ∧ s.shp.warm = false ∧ s.kn.deferWarm = false ∧
       (let u := { s with kn := { s.kn with deferWarm := true } }; u.shp.perst = true ∧ u.shp.warm = false ∧ u.kn.deferWarm = true)) ∧
    (let s := { w0 with kn := { w0.kn with flash := [(3, { valid := false })] }, shp := { w0.shp with off := true } }
     s.imgCode 3 ≠ 0 ∧ s.shp.off = true) ∧ w0.shp.rom = false ∧
    ({ w0 with shp := { w0.shp with rom := true } } : State).shp.rom = true := by decide +kernel
theorem wit_ResetsAndPower_wake : ∀ ps ∈ [1, 2], ∀ kept ∈ [true, false],
    let s0 := wset w0 shpBase [(SHP_STATE.PSTATE, ps), (SHP_WAKE.PIN, 1), (SHP_WAKE.PERST, 1), (SHP_WAKE.AUTO, 1)]
    let s := { s0 with shp := { s0.shp with retained := kept } }
    s.mayWake = true ∧ s.rd shpBase SHP_WAKE.PIN = 1 ∧ s.rd shpBase SHP_STATE.PSTATE = ps ∧ s.shp.failed = false ∧
      s.shp.warm = false ∧ s.rd shpBase SHP_WAKE.PERST = 1 ∧ s.rd shpBase SHP_WAKE.AUTO = 1 ∧ s.live = false ∧
      (let u := { s with shp := { s.shp with perst := true } }
       u.shp.perst = true ∧ u.shp.warm = false ∧ u.mayWake = true) := by decide +kernel
theorem wit_ResetsAndPower_pins :
    (let s := { w0 with shp := { w0.shp with perst := true, warm := true } }
     s.shp.perst = true ∧ s.shp.warm = true ∧ s.rd shpBase SHP_STATE.PSTATE = 0 ∧ s.shp.failed = false ∧ s.shp.off = false ∧
       s.imgCode 4 = 0 ∧ s.imgCode 5 = 0) ∧
    (∀ v ∈ [true, false], let s := { w0 with shp := { w0.shp with off := true, p12v := v } }
     s.shp.off = true ∧ s.shp.failed = false ∧ s.imgCode 3 = 0) := by decide +kernel

theorem wit_PowerAndSensors_levels : ∀ x ∈ [(0, 1), (14, 15), (1, 0), (15, 14), (3, 3)],
    let s0 := wset w0 (pmuBase 1) [(PMU_THROT.LEVEL, x.1), (PMU_THROT.HOSTCAP, x.2)]
    let s := s0.setPmu 1 { stepAt := 10 ^ 12 - 7000000 }
    s.live = true ∧ s.rd (pmuBase 1) PMU_THROT.LEVEL = x.1 ∧ s.throtReq 1 = x.2 ∧ (s.pmu 1).stepAt + 7000000 ≤ s.clock ∧
      (s.pmu 1).stepAt + 70000 ≤ s.clock ∧ s.accepts .mgmt (pmuBase 1 + 8) 4 := by decide +kernel
theorem wit_PowerAndSensors_power :
    let s := (wset w0 (pmuBase 0) [(PMU_PLIMIT.EN, 1)]).setPmu 0 { count := 999, fallAt := 10 ^ 12 - 7000000 }
    s.live = true ∧ s.rd (pmuBase 0) PMU_PLIMIT.EN = 1 ∧ s.rd (pmuBase 0) PMU_PLIMIT.WATTS = 950 ∧ 100 * 902 < 95 * 950 ∧
      ¬ 100 * 903 < 95 * 950 ∧ (s.pmu 0).fallAt + 7000000 ≤ s.clock ∧ (s.pmu 0).count + 1 = 1000 := by decide +kernel
theorem wit_PowerAndSensors_idle : w0.partIdle 0 = true ∧ w0.partIdle 1 = false ∧
    (wset w0 (pmuBase 0) [(PMU_PIDLE.EN, 1)]).partIdle 0 = true ∧ w0.pending = [] ∧ w0.shp.dozing = 0 ∧ w0.active 0 = true ∧
    (∀ t ∈ List.range 144, w0.leashRuns (.cq t) = false ∧ w0.leashRuns (.mq t) = false) ∧
    (∀ p ∈ List.range 16, w0.leashRuns (.gq p) = false ∧ w0.leashRuns (.pmq p) = false) ∧
    (let s := w0.setP 0 { w0.part 0 with idleAt := some (10 ^ 12 - 7000) }
     s.partIdle 0 = true ∧ (s.part 0).idleAt = some (10 ^ 12 - 7000) ∧
       10 ^ 12 - 7000 + 7000 * max 1 ((wset s (pmuBase 0) [(PMU_PIDLE.DELAY, 1)]).rd (pmuBase 0) PMU_PIDLE.DELAY) ≤ s.clock) := by
  decide +kernel
theorem wit_PowerAndSensors_sensors : ∀ x ∈ [(0, 1839), (39, 1840), (40, 1679), (51, 1680), (52, 0x7FFF), (95, 0xFFFF)],
    w0.live = true ∧ x.1 < 96 ∧ x.2 < 2 ^ 16 ∧ w0.rd shpBase (SHP_SCFG.RATE x.1) ≠ 3 ∧
      (x.1 < 40 ∧ 1840 ≤ sext 16 x.2 ∨ 40 ≤ x.1 ∧ x.1 < 52 ∧ 1680 ≤ sext 16 x.2 ↔ x.1 = 39 ∨ x.1 = 51) ∧
      w0.accepts .mgmt (shpBase + 0x400 + 0x10 * x.1) 8 ∧ w0.accepts .mgmt (shpBase + 0x38) 4 ∧ w0.shp.rom = false ∧
      (wset w0 shpBase [(SHP_SCFG.RATE x.1, 3)]).rd shpBase (SHP_SCFG.RATE x.1) = 3 := by decide +kernel
theorem wit_PowerAndSensors_alarm :
    let s := wset w0 shpBase [(SHP_SCFG.HI 60, 100), (SHP_SCFG.LO 60, 50), (SHP_SCFG.ACT 60, 4)]
    s.live = true ∧ bitAt (s.rd shpBase (SHP_SCFG.ACT 60)) 2 = true ∧
      compareSensor (s.rd shpBase (SHP_SCFG.DIR 60) != 0) (s.rd shpBase (SHP_SVAL.ALARM 60) != 0) 200
        (sext 16 (s.rd shpBase (SHP_SCFG.HI 60))) (sext 16 (s.rd shpBase (SHP_SCFG.LO 60))) = true := by decide +kernel

theorem wit_LeashAndBridge : ∀ kr ∈ [0, 1],
    let s := wset w0 shpBase [(SHP_LEASH.KNL_EN, 1), (SHP_LEASH.HOST_EN, 1), (SHP_LEASH.KRESET, kr)]
    s.live = true ∧ s.kn.fwState ≠ 3 ∧ s.shp.knlLive = true ∧ s.shp.hostLive = true ∧ s.rd shpBase SHP_LEASH.KNL_EN = 1 ∧
      s.rd shpBase SHP_LEASH.HOST_EN = 1 ∧ s.rd shpBase SHP_LEASH.KRESET = kr ∧
      s.shp.knlBeat + 7000 * (1000 * max 10 (s.rd shpBase SHP_LEASH.LIMIT)) ≤ s.clock ∧
      s.shp.hostBeat + 7000 * (1000 * max 10 (s.rd shpBase SHP_LEASH.LIMIT)) ≤ s.clock ∧ bitAt s.bridges 3 = false ∧
      s.active 0 = true ∧ s.chanUsed 3 26 = true ∧ s.chanUsed 3 27 = false ∧
      (let u := { s with bridgeSp := [(3, [26])] }
       u.chanUsed 3 26 = false ∧ u.chanUsed 3 27 = true ∧ u.chanUsed 3 28 = false) := by decide +kernel

/-- A device whose host link is up, with LD0 offered, mastering, its decoder 0 committed. -/
def wh : State :=
  let s := wset w0 cxlpBase [(CXLP_LSTAT.RATE, 3), (CXLP_LSTAT.MODE, 1)]
  let s := wset s (cxlpLBase 0) [(CXLP_LDSTAT.OFFERED, 1), (CXLP_LDSTAT.BME, 1)]
  { s with fns := [(0, { hdm := [(0, { base := 2 ^ 40, size := 2 ^ 28, committed := true })] })] }

theorem wit_HostLinkAndConfig_link :
    w0.live = true ∧ w0.linkOn = false ∧ w0.hostOpen = false ∧ w0.shp.perst = false ∧ w0.kn.deferWarm = false ∧
      (let s := { wh with shp := { wh.shp with dozing := 1 } }; s.linkOn = true ∧ s.hostOpen = false) ∧
      (let s := { w0 with kn := { w0.kn with deferWarm := true } }; s.live = true ∧ s.linkOn = false ∧ s.kn.deferWarm = true) ∧ wh.live = true ∧ wh.hostOpen = true ∧
      (let s := { wh with haccs := [(0, { len := 4 })] }
       s.haccs = [(0, { len := 4 })] ∧ ({ len := 4 } : HostAcc).status = 0) := by decide +kernel
/-- The same with the partition's LD kept in its stream, and with the partition being torn down. -/
def whs : State := wset wh (cxlpLBase 0) [(CXLP_LDCTRL.IDE_REQ, 1)]
def whc : State := wset { wh with parts := [(0, { life := 3 })] } (shapePBase 0) [(SHAPE_PCFG.VALID, 0)]
theorem wit_HostLinkAndConfig_open :
    wh.closing 0 = false ∧ whs.hostOpen = true ∧ whs.live = true ∧ whs.offered 0 = true ∧ whs.ideBlocks 0 0 false = true ∧
      whs.ideBlocks 0 2 false = true ∧ whc.hostOpen = true ∧ whc.live = true ∧ whc.offered 0 = true ∧ whc.closing 0 = true ∧
      whc.active 0 = false ∧ (∀ reg ∈ [0x48, 0x174], reg ∈ cfgRw.map Prod.fst) ∧ wh.closing 8 = false := by decide +kernel
theorem wit_HostLinkAndConfig_config :
    (∀ ide ∈ [true, false], wh.ideBlocks 0 0 ide = false) ∧ wh.offered 0 = true ∧ wh.offered 8 = true ∧ wh.offered 1 = false ∧
      (wh.cfgRead 0 0x04).isSome = true ∧ (wh.cfgRead 0 0x60).isNone = true ∧
      (let s := { wh with shp := { wh.shp with failed := true } }
       s.hostOpen = true ∧ s.live = false) := by decide +kernel
theorem wit_HostLinkAndConfig_decoder :
    wh.offered 0 = true ∧ wh.offered 1 = false ∧ (tgetD (wh.fn 0).hdm 0 {}).committed = true ∧
      (tgetD (wh.fn 0).hdm 1 {}).committed = false ∧ (wh.partStacks 0).length * 2 ^ 36 = 2 ^ 36 ∧
      (let h0 := tgetD (wh.fn 0).hdm 0 {}
       h0.skip + h0.size / h0.ways + (0 + (2 ^ 36 - 2 ^ 28) / 1) ≤ 2 ^ 36 ∧
       ¬ h0.skip + h0.size / h0.ways + (2 ^ 28 + (2 ^ 36 - 2 ^ 28) / 1) ≤ 2 ^ 36) := by decide +kernel
theorem wit_HostLinkAndConfig_flr : ∀ st ∈ [0, 3],
    let s := { wh with kn := { wh.kn with fwState := st } }
    s.live = true ∧ s.hostOpen = true ∧ s.offered 0 = true ∧ s.kn.fwState = st := by decide +kernel

theorem wit_HostAccesses_bar0 : wh.live = true ∧ wh.hostOpen = true ∧ wh.offered 0 = true ∧ wh.ideBlocks 0 0 false = false ∧
    (∀ w ∈ [true, false], wh.regStatus (ldSrc 0) (0xC100000000 + 8) 8 w = 0 ∧
      wh.regStatus (ldSrc 0) (0xC100000000 + 0x2FFFFF8) 8 w ≠ 0) := by decide +kernel
/-- Accesses that are turned away: at addresses that the target has, and at others. -/
theorem wit_HostAccesses_closed : ∀ s ∈ [whs, whc],
    s.live = true ∧ s.hostOpen = true ∧ s.offered 0 = true ∧ ¬ (s.closing 0 = false ∧ s.ideBlocks 0 0 false = false) ∧
      (∀ x ∈ [(0x700000, 8, false), (2, 4, true)], (s.regStatus (ldSrc 0) (0xC100000000 + x.1) x.2.1 false = stBadAddr ↔ x.2.2 = true)) ∧
      (∀ x ∈ [(0, 4, false), (0x3FFFFC, 8, true)],
        (s.rangeStatus (.ld 0) none (0xC000000000 + x.1) x.2.1 = stBadAddr → x.2.2 = true)) ∧
      inMsix 0x100000 = true ∧ inMsix 0 = false := by decide +kernel
theorem wit_HostAccesses_comp : ∀ x ∈ [(0x200, true), (0x207, false), (0x2B0, false)],
    let h0 : Hdm := { base := 2 ^ 28, size := 2 ^ 28 }
    let s := { wh with fns := [(0, { hdm := [(0, h0)] })] }
    let h : Hdm := { h0 with gran := 256 * 2 ^ (x.1 % 16), ways := waysOf (x.1 / 16 % 16), lock := bitAt x.1 8 }
    s.live = true ∧ s.hostOpen = true ∧ s.offered 0 = true ∧ s.closing 0 = false ∧ s.ideBlocks 0 0 false = false ∧
      bitAt x.1 9 = true ∧ (tgetD (s.fn 0).hdm 0 {}).committed = false ∧ (tgetD (s.fn 0).hdm 1 {}).committed = false ∧
      (h.legal = true ∧ h.skip + h.size / h.ways ≤ (s.partStacks 0).length * 2 ^ 36 ↔ x.2 = true) := by decide +kernel
theorem wit_HostAccesses_bar2 : ∀ x ∈ [(0, 1), (0x400000 - 4096, 4096)],
    wh.ideBlocks 0 0 false = false ∧ wh.tilePresent 0 = true ∧ wh.packPart (packOf 0) = some 0 ∧ wh.bridges = 0 ∧
      wh.awake (packOf 0) ∧ scratchBase 0 ≤ 0xC000000000 + x.1 ∧ 0xC000000000 + x.1 + x.2 ≤ scratchBase 0 + 0x400000 ∧
      2 ^ 32 < 2 ^ 32 - 1 + 2 := by decide +kernel
theorem wit_HostAccesses_doorbell : wh.ideBlocks 0 0 false = false ∧ wh.packPart 0 = some 0 ∧ wh.inRange 0 0 = true ∧
    wh.inRange 0 15 = true ∧ wh.inRange 0 16 = false ∧ wh.inRange 0 1023 = false ∧ wh.bridges = 0 := by decide +kernel
theorem wit_HostAccesses_mem : ∀ o ∈ [0, 2 ^ 28 - 64],
    wh.ideBlocks 0 2 false = false ∧ wh.hdmDpa 0 (2 ^ 40 + o) = some o ∧ (2 ^ 40 + o) % 64 + 64 ≤ 64 ∧
      (let a := (wh.partStacks 0).getD (o / 2 ^ 36) 0 * 2 ^ 36 + o % 2 ^ 36
       a / 2 ^ 36 < 12 ∧ (a + 64 - 1) / 2 ^ 36 = a / 2 ^ 36 ∧ wh.stackPart (a / 2 ^ 36) = some 0 ∧ wh.active 0 = true ∧
         wh.herr = []) ∧
      wh.hdmDpa 0 (2 ^ 40 + 2 ^ 28) = none := by decide +kernel

theorem wit_HowlWindow : ∀ x ∈ [(0, 4096), (0x400000 - 1, 1)],
    wh.live = true ∧ wh.hostOpen = true ∧ wh.offered 0 = true ∧ wh.ideBlocks 0 0 false = false ∧ 0 < x.2 ∧ x.2 ≤ 4096 ∧
      x.1 + x.2 ≤ 0x400000 ∧ wh.partStacks 0 ≠ [] ∧ wh.stackPart ((wh.partStacks 0).headD 0) = some 0 ∧ wh.active 0 = true ∧
      wh.bridges = 0 ∧ wh.herr = [] ∧ wh.rd cxlpBase CXLP_ERRLOG.VALID = 0 := by decide +kernel

theorem wit_SpdmAndIde : ∀ v ∈ [true, false], ∀ dbg ∈ [0, 1],
    let s := { wset wh knlBase [(KNL_STATE.DEBUG, dbg)] with fns := [(0, { version := v, exchange := v, session := v })] }
    s.live = true ∧ s.hostOpen = true ∧ s.offered 0 = true ∧ s.offered 1 = false ∧ (s.fn 0).version = v ∧ (s.fn 0).exchange = v ∧
      (s.fn 0).session = v ∧ s.rd knlBase KNL_STATE.DEBUG = dbg ∧ 0 = s.linkKeyFn ∧ 8 ≠ s.linkKeyFn ∧
      s.rd (cxlpLBase 0) CXLP_LDSTAT.IDE_IO = 0 ∧
      (wset s (cxlpLBase 0) [(CXLP_LDSTAT.IDE_IO, 1)]).rd (cxlpLBase 0) CXLP_LDSTAT.IDE_IO = 1 ∧
      s.rd cxlpBase CXLP_ERRLOG.VALID = 0 ∧ s.accepts (.ld 0) (cxlpLBase 0 + 8) 4 := by decide +kernel
theorem wit_SpdmAndIde_turned : whc.live = true ∧ whc.hostOpen = true ∧ whc.offered 0 = true ∧ whc.closing 0 = true ∧
    whc.rd cxlpBase CXLP_ERRLOG.VALID = 0 ∧ wh.offered 1 = false ∧ wh.closing 0 = false := by decide +kernel
theorem wit_SpdmAndIde_open :
    let s := { wh with fns := [(0, { version := true, session := true })] }
    s.offered 0 = true ∧ (s.fn 0).session = true ∧ (s.fn 0).exchange = false ∧ s.rd knlBase KNL_STATE.DEBUG = 0 ∧
      s.rd cxlpBase CXLP_LSTAT.CMIDE = 0 ∧ (wset s cxlpBase [(CXLP_LSTAT.CMIDE, 1)]).rd cxlpBase CXLP_LSTAT.CMIDE = 1 := by
  decide +kernel
/-- The length of a certificate request of OFFSET 0, whose number does not depend on the chain (R449). -/
theorem wit_SpdmAndIde_requests : (∀ x ∈ [0x82, 0x83, 0x84, 0xE0, 0xE1, 0xE3, 0xE4, 0xE5, 0xEC], ([0x12, x, 0, 0] : List Nat).getD 1 0 % 256 = x) ∧
    ([0x12, 0x82, 0, 0] : List Nat).getD 2 0 % 16 = 0 := by decide +kernel

theorem wit_HostServices_piece : ∀ k ∈ [HostKind.read, .write], ∀ cache ∈ [0, 1], ∀ bme ∈ [0, 1],
    let a : HostAcc := { kind := k, addr := 4095, len := 32, parts := [(0, List.replicate 32 1)] }
    let s := { wset (wset wh cxlpBase [(CXLP_LSTAT.CACHE, cache)]) (cxlpLBase 0) [(CXLP_LDSTAT.BME, bme)] with haccs := [(0, a)], lastLd := 0 }
    s.live = true ∧ s.freeHostRet = some 0 ∧ s.crossFails 0 (packStop a.pack) hostStop = false ∧ (∀ i ∈ List.range 9, s.ldNext ((s.lastLd + 1 + i) % 10) = none) ∧ (s.lastLd + 1 + 9) % 10 = 0 ∧
      s.ldNext 0 = some (0, a) ∧ s.hostDenied 0 a.kind = (bme == 0) ∧ s.hostOpen = true ∧ s.cacheOn = (cache == 1) ∧
      tget s.haccs 0 = some a ∧ a.status = 0 ∧ a.taken + 1 < a.len ∧ min (a.len - a.taken) (4096 - 4095 % 4096) = 1 := by
  decide +kernel
theorem wit_HostServices_meets :
    let a : HostAcc := { len := 32, pack := 8 }
    let s := { wh with haccs := [(0, a)], bridges := 15 }
    s.live = true ∧ s.freeHostRet = some 0 ∧ s.ldNext ((s.lastLd + 1 + 9) % 10) = some (0, a) ∧ tget s.haccs 0 = some a ∧
      a.status = 0 ∧ s.crossFails 0 (packStop a.pack) hostStop = true ∧
      (let u := { wh with hpieces := [(1, { acc := 0, off := 0, len := 1, t0 := 0 }), (2, { acc := 0, off := 0, len := 1, t0 := 0, ret := 1 })] }
       u.freeHostRet = none) := by decide +kernel
/-- A denied piece of a copy whose local range lies in no memory, and of one whose range is right. -/
theorem wit_HostServices_denied : ∀ x ∈ [(0xC024000000, true), (scratchBase 0, false)],
    let a : HostAcc := { kind := .read, len := 32, loc := x.1, owner := .cmd (.pmq 0) 4 0 }
    let s := { wset wh (cxlpLBase 0) [(CXLP_LDSTAT.BME, 0)] with haccs := [(0, a)], lastLd := 9 }
    s.live = true ∧ s.freeHostRet = some 0 ∧ (s.lastLd + 1 + 0) % 10 = 0 ∧ s.ldNext 0 = some (0, a) ∧ tget s.haccs 0 = some a ∧
      a.status = 0 ∧ s.hostDenied 0 a.kind = true ∧
      (a.taken = 0 ∧ firstStatus (s.rangeStatus (s.ownerSrc a.owner a.pack) none a.loc a.len) stDenied ≠ stDenied ↔ x.2 = true) ∧
      (let u := { wset wh cxlpBase [(CXLP_LSTAT.RATE, 0)] with haccs := [(0, a)], lastLd := 9 }
       u.linkOn = false ∧ u.hostDenied 0 a.kind = false ∧ u.ldNext 0 = some (0, a)) := by decide +kernel
theorem wit_HostServices_cut :
    let a : HostAcc := { kind := .read, len := 32, taken := 32, pack := 8 }
    let p : HostPiece := { acc := 0, off := 0, len := 32, t0 := 0 }
    let s := { wh with haccs := [(0, a)], hpieces := [(5, p)], bridges := 15 }
    s.live = true ∧ tget s.hpieces 5 = some p ∧ tget s.haccs p.acc = some a ∧ a.status = 0 ∧ a.kind = .read ∧ a.ld < 8 ∧
      s.wayFails hostStop (packStop a.pack) = true ∧ wh.wayFails hostStop (packStop 0) = false := by decide +kernel
theorem wit_HostServices_observed :
    let a : HostAcc := { kind := .write, len := 64, taken := 32, parts := [(0, List.replicate 64 1)] }
    let p : HostPiece := { acc := 0, off := 0, len := 32, t0 := 0 }
    let s := { wh with haccs := [(0, a)], hpieces := [(5, p)] }
    s.live = true ∧ tget s.hpieces 5 = some p ∧ tget s.haccs p.acc = some a ∧ a.status = 0 ∧ a.kind = .write ∧
      a.parts = [(0, List.replicate 64 1)] ∧ (List.replicate 64 1).length = a.len ∧ p.off + p.len ≤ a.len ∧ a.taken < a.len ∧
      a.ld < 8 := by decide +kernel
theorem wit_HostServices_answer : ∀ t ∈ [10 ^ 12 - 1, 0],
    let a : HostAcc := { kind := .read, loc := scratchBase 0, len := 64, taken := 32 }
    let p : HostPiece := { acc := 0, off := 0, len := 32, t0 := t }
    let s := { wh with haccs := [(0, a)], hpieces := [(5, p)] }
    s.live = true ∧ tget s.hpieces 5 = some p ∧ tget s.hpieces 6 = none ∧ tget s.haccs p.acc = some a ∧ a.status = 0 ∧
      (p.t0 + 7000 * max 1 (s.rd cxlpBase CXLP_CFG.CTO_US) ≤ s.clock ↔ t = 0) ∧ a.taken < a.len ∧ a.ld < 8 ∧
      (memWrite { s with hpieces := tdel s.hpieces 5 } (.unit a.pack) (a.loc + p.off) (List.replicate 32 7)).2 = 0 ∧
      (∀ n ∈ List.range 10, w0.ldNext n = none) := by decide +kernel
theorem wit_HostServices_msix : ∀ vec ∈ [0, 2047],
    (wh.offered 0 = true ∧ wh.closing 0 = false ∧ wh.ideBlocks 0 0 false = false ∧ vec ∉ tgetD wh.msixPend 0 []) ∧
      badDest (24 % 2 ^ 24) = true ∧ badDest (16 % 2 ^ 24) = false ∧
      (∀ m ∈ [0, 1], let s := { wh with msixPend := [(0, [vec])], fns := [(0, { msix := m })] }
       vec ∈ tgetD s.msixPend 0 [] ∧ (tgetD s.msixPend 0 []).Nodup ∧ (∀ v ∈ tgetD s.msixPend 0 [], v = vec) ∧
         ((s.fn 0).msix % 4 = 1 ↔ m = 1) ∧ s.rd (cxlpLBase 0) CXLP_LDSTAT.BME = 1) ∧
      wh.accepts .mgmt (cxlpBase + 0x40) 8 ∧ wh.telAt = none ∧
      (∀ t ∈ [10 ^ 12 - 700000, 10 ^ 12 - 699999], ({ wh with telAt := some t } : State).telAt = some t ∧ wh.clock = 10 ^ 12) := by
  decide +kernel

/-- Does a state take a step to a next state? -/
def steps (s : State) : Bool :=
  match step s with
  | .next _ => true
  | _ => false

/-- The state after one step; a stop, which no state has, would answer the state after reset. -/
def stepped (s : State) : State :=
  match step s with
  | .next u => u
  | _ => State.reset

def wStore : State := { w0 with pending := [.store (.unit 0) (scratchBase 0) [7, 0, 9]] }

def wEnroll : State :=
  { wk 0x10 388 ([2, 0, 0, 0] ++ List.replicate 384 1) with
    ident := { State.reset.ident with opRev := 1 }, pending := [.enrollOpkey] }

theorem wit_StepKeepsSound : wStore.sound ∧ steps wStore = true ∧
    (stepped wStore).mem = [(scratchBase 0, 7), (scratchBase 0 + 2, 9)] ∧ (stepped wStore).pending = [] := by
  unfold State.sound; decide +kernel
theorem wit_StepKeepsFuses : (tget wEnroll.ident.opKeys 2) = none ∧
    (match step wEnroll with
     | .next u => (tget u.ident.opKeys 2).isSome && u.ident.opRev == 1
     | _ => false) = true := by decide +kernel

end Sys2Proof.Tests
end

section
/-! PROOFS. The scaled replay, the AG FIFO and the cycle counter of a tile (R65, R66, R70, R71, R152). -/

namespace Sys2Proof.Machine

/-- A command whose operands name units takes effect while the compute dies serve. -/
theorem onLive_ok {s : State} (hl : s.live = true) {ok : Bool} (hok : ok = true) (f : State → State) :
    onLive ok s f = .next (f s) := by simp [onLive, hl, hok]

theorem okTile_of_lt {t : Nat} (h : t < 144) : okTile t = true := by simpa [okTile] using h

/-- A write changes no register but its own field. -/
theorem regsBut_wr (s : State) (b : Nat) (f : Field) (v : Nat) : regsBut s (s.wr b f v) [fkey b f] :=
  fun k hk => s.tget_wr_ne b f v k (by simpa using hk)

/-! A scaled replay. -/

/-- A tile that stands at a cycle needs no clocking to reach it. -/
theorem runTo_now {s : State} {t c : Nat} (h : (s.tile t).cyc = c) : runTo s t c = s := by
  simp [runTo, h, runCycles]

/-- The states agree but for registers and the address generators of tile t. -/
structure agsOnly (t : Nat) (s u : State) : Prop where
  same : u = { s with regs := u.regs, tiles := u.tiles }
  tile : u.tile t = { s.tile t with ags := (u.tile t).ags }

theorem agsOnly_refl (t : Nat) (s : State) : agsOnly t s s := ⟨rfl, rfl⟩

theorem agsOnly_trans {t : Nat} {a b c : State} (h : agsOnly t a b) (k : agsOnly t b c) : agsOnly t a c :=
  ⟨by rw [k.same, h.same], by rw [k.tile, h.tile]⟩

theorem agsOnly_setAg (s : State) (t n : Nat) (v : AgUnit) : agsOnly t s (s.setAg t n v) :=
  ⟨rfl, by simp [State.setAg]⟩

theorem agsOnly_setPos (s : State) (t n : Nat) (ix : List Nat) : agsOnly t s (s.setPos t n ix) :=
  forEach_rel (agsOnly t) (agsOnly_refl t) (fun _ _ _ => agsOnly_trans) (List.range 4)
    (fun s k => s.wr (agBase t n) (AG_POS.I k) (ix.getD k 0)) (fun _ _ => ⟨rfl, rfl⟩) s

/-- A tile whose bank of a command is restored from the shadow plane for the command's next run (R66). -/
def Tile.restored (ti : Tile) (c : Cur) : Tile :=
  { ti with
    acc := ti.shadow.foldl (fun m e => tput m (accKey (mmaBANK c.w) e.1) {} e.2)
      (ti.acc.filter (fun e => e.1 / 12288 != mmaBANK c.w))
    cen := tdel ti.cen c.num, replay := none }

theorem exec_scaledReplay {s : State} {t : Nat} (hl : s.live = true) (ht : t < 144) :
    exec (.scaledReplay t) s = .next (startReplay s t) :=
  onLive_ok hl (okTile_of_lt ht) (fun s => startReplay s t)

/-- A replay that is due restores the tile, moves address generators back, and starts the command from its first repeat. -/
theorem startReplay_due {s : State} {t : Nat} {r : Replay} {c : Cur} (hr : (s.tile t).replay = some r)
    (hc : (s.queue (.cq t)).cur = some c) (hcyc : (s.tile t).cyc = r.hold + 96) :
    ∃ v, agsOnly t (s.setT t ((s.tile t).restored c)) v ∧
      startReplay s t = v.setQ (.cq t)
        { v.queue (.cq t) with cur := some { c with rep := 0, run := r.runs }, sNext := r.hold + 96 } := by
  simp only [startReplay, hr, hc, runTo_now hcyc]
  refine ⟨_, ?_, rfl⟩
  refine forEach_rel (agsOnly t) (agsOnly_refl t) (fun _ _ _ => agsOnly_trans) _ _ (fun x n => ?_) _
  split
  · exact agsOnly_setAg x t n _
  · exact agsOnly_trans (agsOnly_setAg x t n _) (agsOnly_setPos _ t n _)

/-! A write of AG_FIFO. -/

@[simp] theorem State.agUnit_setAg_same (s : State) (t n : Nat) (v : AgUnit) : (s.setAg t n v).agUnit t n = v := by
  simp [State.setAg, State.agUnit]

/-- A push into a FIFO with room appends the entry. -/
theorem agPush_room {s : State} {t n : Nat} (v : Nat)
    (h : (s.agUnit t n).fifo.length + (s.agUnit t n).kept.length < 64) :
    agPush s t n v = s.setAg t n { s.agUnit t n with fifo := (s.agUnit t n).fifo ++ [v % 2 ^ 22] } := by
  simp [agPush, Nat.not_le.2 h]

/-- A push into a full FIFO sets OVF and is lost. -/
theorem agPush_full {s : State} {t n : Nat} (v : Nat)
    (h : 64 ≤ (s.agUnit t n).fifo.length + (s.agUnit t n).kept.length) :
    agPush s t n v = s.wr (agBase t n) AG_FIFO_STAT.OVF 1 := by simp [agPush, h]

/-- What reaches an awake pack wakes nothing (R518). -/
theorem wakePack_of_awake {s : State} {p : Nat} (h : s.awake p) : wakePack s p = s :=
  wakePack_awake s p (fun k hk => by simpa [State.awake, hk] using h)

/-- A write of the unit of AG_FIFO pushes the low 22 bits. -/
theorem unitWrite_agFifo (s : State) {t n : Nat} (v : Nat) (ht : t < 144) (hn : n < 3) :
    unitWrite s (.ag t n) (agBase t n + 0x50) 8 v {} = agPush s t n (v % 2 ^ 22) := by
  have h8 : (agBase t n + 0x50) % 8 = 0 := by unfold agBase tileBase; omega
  obtain ⟨_, _, hf⟩ := unit_agfifo t n ⟨okTile_of_lt ht, hn⟩
  simp [unitWrite, hf, writeField, writeOnly, coverage, h8, bitsAt, bitAt, fieldPos, AG_FIFO.BASE]

/-- A write of AG_FIFO that passes its checks in an awake pack pushes the low 22 bits and completes (R152). -/
theorem exec_agFifo {s : State} {c : Src} {t n : Nat} (v : Nat) (hl : s.live = true) (ht : t < 144) (hn : n < 3)
    (hacc : s.accepts c (agBase t n + 0x50) 8) (haw : s.awake (packOf t)) :
    exec (.agFifo c t n v) s = .next ((agPush s t n (v % 2 ^ 22)).emit (.compl 0 [])) := by
  have hx : exec (.agFifo c t n v) s = .next (regCmd s c (agBase t n + 0x50) 8 v {}) :=
    onLive_ok (ok := okTile t && decide (n < 3)) hl (by simp [okTile, ht, hn])
      (fun s => regCmd s c (agBase t n + 0x50) 8 v {})
  obtain ⟨hbuf, hblk, _⟩ := unit_agfifo t n ⟨okTile_of_lt ht, hn⟩
  have hw : wakeReg s (.ag t n) true = s := wakePack_of_awake haw
  rw [hx, regCmd_unit s c _ 8 v {} _ hacc hbuf hblk, hw, unitWrite_agFifo s v ht hn]

/-! TILE_CYCLES. -/

theorem exec_tileCyclesWrap {s : State} {t : Nat} (hl : s.live = true) (ht : t < 144) :
    exec (.tileCyclesWrap t) s = .next (cyclesWrap s t) :=
  onLive_ok hl (okTile_of_lt ht) (fun s => cyclesWrap s t)

/-- From 2^48 cycles on the count goes on 2^48 lower, with WRAP set (R70). -/
theorem cyclesWrap_due {s : State} {t : Nat} (h : 2 ^ 48 ≤ s.tileCycles t) :
    cyclesWrap s t =
      (s.setT t { s.tile t with cycBase := (s.tile t).cycBase + 2 ^ 48 }).wr (tileBase t) TILE_CYCLES.WRAP 1 := if_pos h

/-- Below 2^48 cycles nothing wraps. -/
theorem cyclesWrap_early {s : State} {t : Nat} (h : s.tileCycles t < 2 ^ 48) : cyclesWrap s t = s := if_neg (by omega)

/-- A later base of the cycle counter lowers the count by as much. -/
theorem tileCycles_setT_cycBase (s : State) (t n : Nat) :
    (s.setT t { s.tile t with cycBase := (s.tile t).cycBase + n }).tileCycles t = s.tileCycles t - n := by
  simp only [State.tileCycles, State.tile_setT_same]
  exact Nat.sub_add_eq _ _ _

end Sys2Proof.Machine

open Sys2Proof Sys2Proof.Machine

/-- Settles O11: a replay that is due restores the bank, a push fills or overflows the FIFO, the cycle counter wraps. -/
theorem replayFifoCycles : Obligations.ReplayFifoCycles := by
  unfold Obligations.ReplayFifoCycles
  refine ⟨fun s t r c hl ht hr hc hcyc => ?_, fun s c t n v hl ht hn _ => ⟨fun hacc haw => ?_, fun h => ?_, fun h => ?_⟩⟩
  · obtain ⟨v, hv, he⟩ := startReplay_due hr hc hcyc
    have htile := hv.tile
    rw [State.tile_setT_same] at htile
    refine ⟨_, (exec_scaledReplay hl ht).trans (congrArg _ he), ?_, ?_, ?_, ?_, ?_⟩
    · rw [State.tile_setQ, htile]; rfl
    · simp
    · simp
    · rw [State.tile_setQ, htile]; rfl
    · rw [hv.same]; rfl
  · refine ⟨_, exec_agFifo v hl ht hn hacc haw, fun hroom => ?_, fun hfull => ?_⟩
    · rw [agPush_room _ hroom, Nat.mod_mod]
      exact ⟨State.agUnit_setAg_same s t n _, rfl⟩
    · rw [agPush_full _ hfull]
      exact ⟨State.rd_wr_same s (agBase t n) AG_FIFO_STAT.OVF 1, regsBut_wr s _ _ 1, rfl⟩
  · refine ⟨_, exec_tileCyclesWrap hl ht, ?_⟩
    rw [cyclesWrap_due h]
    exact ⟨tileCycles_setT_cycBase s t _, State.rd_wr_same _ _ _ 1, regsBut_wr _ _ _ 1, rfl⟩
  · rw [exec_tileCyclesWrap hl ht, cyclesWrap_early h]

end

section
/-! PROOFS. The memory that an event touches (R417, R537, R541), and the refusal of a low-bit command (R46, R166). -/

namespace Sys2Proof.Machine

/-! The bytes that an event record of partition scope may change. -/

theorem evRecord_length (e : Ev) (part time : Nat) (d : EvData) : (evRecord e part time d).length = 64 := by
  simp [evRecord]

@[simp] theorem nfHook_mem (s : State) (k a n : Nat) : (nfHook s k a n).mem = s.mem := by
  rw [(waitsOnly_nfHook s k a n).same]

@[simp] theorem State.bump_mem (s : State) (b : Nat) (c w : Field) (n : Nat) : (s.bump b c w n).mem = s.mem := by
  rw [s.bump_eq]

@[simp] theorem sendMsix_mem (s : State) (ld vec : Nat) : (sendMsix s ld vec).mem = s.mem := by
  unfold sendMsix; dsimp only; split
  · split <;> rfl
  · rfl

/-- A ring's record changes no byte outside its place. -/
theorem ringPut_mget (s : State) (src : Nat × Nat) (k base lg wr rd : Nat) (rcd : List Nat) {x : Nat}
    (h : x < base + wr % 2 ^ lg ∨ base + wr % 2 ^ lg + rcd.length ≤ x) :
    mget (ringPut s src k base lg wr rd rcd).1.mem x = mget s.mem x := by
  unfold ringPut; dsimp only; split
  · rw [nfHook_mem]
    exact mget_mwrite_out _ _ _ _ h
  · rfl

theorem partRing_mget (s : State) (k : Nat) {rcd : List Nat} (hr : rcd.length = 64) {x : Nat}
    (h : x < s.evAt k ∨ s.evAt k + 64 ≤ x) : mget (partRing s k rcd).mem x = mget s.mem x := by
  unfold partRing; dsimp only; split
  · split
    · exact ringPut_mget s trcStop k _ _ _ _ rcd (by rwa [hr])
    · rw [State.bump_mem]
  · rw [State.bump_mem]

theorem partPut_mget (s : State) (k code sev : Nat) {rcd : List Nat} (hr : rcd.length = 64) {x : Nat}
    (h : x < s.evAt k ∨ s.evAt k + 64 ≤ x) : mget (partPut s k code sev rcd).mem x = mget s.mem x := by
  unfold partPut; dsimp only; split
  · rw [sendMsix_mem, partRing_mget s k hr h]
  · exact partRing_mget s k hr h

theorem devPut_mget (s : State) {rcd : List Nat} (hr : rcd.length = 64) {x : Nat}
    (h : x < s.devAt ∨ s.devAt + 64 ≤ x) : mget (devPut s rcd).mem x = mget s.mem x := by
  unfold devPut; dsimp only; split
  · exact mget_mwrite_out _ _ _ _ (by rwa [hr])
  · rw [State.bump_mem]

/-- An event of partition scope changes no byte outside the places of its record (R536, R537, R541). -/
theorem raiseEv_memButEv (s : State) (e : Ev) (p : Option Nat) (d : EvData) (hscope : (evInfo e).2.2 = 1) :
    memButEv s (raiseEv s e p d) p := by
  intro x hp hd
  have hr := evRecord_length e (p.getD 0xFF) s.ns d
  unfold raiseEv
  generalize evInfo e = i at *
  obtain ⟨code, sev, scope⟩ := i
  obtain rfl : scope = 1 := hscope
  dsimp only
  cases p with
  | none => exact devPut_mget s hr hd
  | some k =>
    cases hk : s.active k with
    | true => simpa [State.evToPart, hk] using partPut_mget s k code sev hr (hp k rfl)
    | false => simpa [State.evToPart, hk] using devPut_mget s hr hd

/-! What a low-bit command is refused with, and that it does not issue. -/

/-- A low-bit command with no earlier cause of R556 is refused with NO_LOWBIT on a tile whose index is not 8 (R46). -/
theorem refuseCode_lowBit {s : State} {t w : Nat} (ht : t % 9 ≠ 8) (hop : cwOPCODE w = opMMALB) (hres : envReserved w = false)
    (hrep : cwREPEAT w ≤ 2 ^ 20) (ham : ∀ n ∈ agsUsed w, amOf w n ≠ 3 ∧ s.modeOn (.cq t) (amOf w n) = true)
    (hlist : ¬ (2 ∈ agsUsed w ∧ cwAM2 w = 2)) (hsig : cwSIG w = 1 → s.inRange (packOf t) (cwSIGIDX w) = true) :
    s.refuseCode (.cq t) w = some 0x0A := by
  have h3 : (agsUsed w).any (fun n => amOf w n == 3) = false := by
    simpa using fun n hn => (ham n hn).1
  have hmode : (agsUsed w).any (fun n => !(s.modeOn (.cq t) (amOf w n))) = false := by
    simpa using fun n hn => (ham n hn).2
  have hr : cwREPEAT w ≤ 1048576 := hrep
  have hs : (cwSIG w == 1 && !(s.inRange (packOf t) (cwSIGIDX w))) = false := by simpa using hsig
  have hq : opQueues opMMALB = [0] := rfl
  simp [State.refuseCode, hop, hq, qKind, qPack, hres, hr, h3, hmode, Decidable.not_and_iff_not_or_not.1 hlist, hs, ht]

/-- No command stands at the head of a block that is not open. -/
theorem blockHead_closed {s : State} {t : Nat} (op : Nat) (ho : (s.queue (.cq t)).isOpen = false) :
    s.blockHead t op = none := by
  unfold State.blockHead; dsimp only; split
  · simp [ho]
  · rfl

/-- Without an open block and a command being issued nothing issues. -/
theorem issueWork_closed {s : State} {t : Nat} (n op : Nat) (hc : (s.queue (.cq t)).cur = none)
    (ho : (s.queue (.cq t)).isOpen = false) : issueWork n s t op = s := by
  cases n with
  | zero => rfl
  | succ n => simp [issueWork, hc, blockHead_closed op ho]

theorem exec_mmaLb_closed {s : State} {t : Nat} (n : Nat) (hc : (s.queue (.cq t)).cur = none)
    (ho : (s.queue (.cq t)).isOpen = false) : exec (.mmaLb t n) s = .next s := by
  show onLive (okTile t) s (fun s => issueWork n s t opMMALB) = .next s
  simp [onLive, issueWork_closed n opMMALB hc ho]

/-! The fault. -/

/-- The registers of a tile that a refusal with NO_LOWBIT writes. -/
def lowBitKeys (t : Nat) : List Nat :=
  [fkey (qBase (.cq t)) SEQ_QSTAT.FAULT, fkey (qBase (.cq t)) SEQ_QSTAT.FAULT_CODE, fkey (qBase (.cq t)) SEQ_QSTAT.TAG,
    fkey (tileBase t) TILE_STAT.NO_LOWBIT]

/-- The state that shows the refusal of a low-bit command, its block stopped, before the event is raised (R166). -/
def lowBitShown (s : State) (t w : Nat) : State :=
  let b := qBase (.cq t)
  let v := ((s.wr b SEQ_QSTAT.FAULT 1).wr b SEQ_QSTAT.FAULT_CODE 0x0A).wr b SEQ_QSTAT.TAG (cwTAG w)
  let qu := s.queue (.cq t)
  (v.setQ (.cq t) { qu with hold := .refused, blk := 0, isOpen := qu.cur.isSome && qu.isOpen }).wr
    (tileBase t) TILE_STAT.NO_LOWBIT 1

theorem setFault_lowBit (s : State) (t w : Nat) : ∃ d, setFault s (.cq t) .refused w 0x0A 0 0 0 =
    raiseEv (lowBitShown s t w) .seqFault ((lowBitShown s t w).qPart (.cq t)) d := ⟨_, rfl⟩

theorem lowBitShown_same (s : State) (t w : Nat) : lowBitShown s t w =
    { s with regs := (lowBitShown s t w).regs, queues := (lowBitShown s t w).queues } := by
  simp only [lowBitShown, State.wr, State.setQ]

theorem lowBitShown_regs (s : State) (t w : Nat) : regsBut s (lowBitShown s t w) (lowBitKeys t) := by
  intro k hk
  simp only [lowBitKeys, List.mem_cons, List.not_mem_nil, or_false, not_or] at hk
  obtain ⟨hf, hcode, htag, hlb⟩ := hk
  unfold lowBitShown
  rw [State.tget_wr_ne _ _ _ _ _ hlb, State.setQ_regs, State.tget_wr_ne _ _ _ _ _ htag, State.tget_wr_ne _ _ _ _ _ hcode,
    State.tget_wr_ne _ _ _ _ _ hf]

/-- A field whose key is not listed reads as before. -/
theorem rd_of_regsBut {s u : State} {keys : List Nat} (h : regsBut s u keys) {b : Nat} {f : Field}
    (hk : fkey b f ∉ keys) : u.rd b f = s.rd b f := by
  simp only [State.rd, tgetD, h _ hk]

/-- The fault writes below the packs' register windows. -/
theorem lowBitKeys_lt {t k : Nat} (ht : t < 144) (hk : k ∈ lowBitKeys t) : k < 0xC101000000 * 64 := by
  simp only [lowBitKeys, List.mem_cons, List.not_mem_nil, or_false] at hk
  rcases hk with rfl | rfl | rfl | rfl <;>
    simp only [fkey, qBase, tileBase, SEQ_QSTAT.FAULT, SEQ_QSTAT.FAULT_CODE, SEQ_QSTAT.TAG, TILE_STAT.NO_LOWBIT] <;> omega

/-- A write leaves the fields of other bit positions. -/
theorem State.rd_wr_lo_ne (s : State) (b x : Nat) {f g : Field} (v : Nat) (h : g.lo ≠ f.lo) (hf : f.lo < 64) (hg : g.lo < 64) :
    (s.wr b f v).rd x g = s.rd x g :=
  s.rd_wr_ne b x f g v (by simp only [fkey]; omega)

theorem lowBitShown_rd_above (s : State) {t b : Nat} (w : Nat) (f : Field) (ht : t < 144) (hb : 0xC101000000 ≤ b) :
    (lowBitShown s t w).rd b f = s.rd b f :=
  rd_of_regsBut (lowBitShown_regs s t w) fun hk => by
    have := lowBitKeys_lt ht hk
    simp only [fkey] at this
    omega

theorem lowBitShown_qPart (s : State) {t : Nat} (w : Nat) (q : QId) (ht : t < 144) :
    (lowBitShown s t w).qPart q = s.qPart q := by
  have hrd : ∀ k f, (lowBitShown s t w).rd (shapePBase k) f = s.rd (shapePBase k) f := fun k f =>
    lowBitShown_rd_above s w f ht (by unfold shapePBase shapeBase; omega)
  simp only [State.qPart, State.packPart, State.bit, hrd]

/-- The places of event records do not move. -/
theorem memButEv_lowBitShown {s u : State} {t w : Nat} (ht : t < 144) {p : Option Nat}
    (h : memButEv (lowBitShown s t w) u p) : memButEv s u p := by
  have hat : ∀ k, (lowBitShown s t w).evAt k = s.evAt k := fun k => by
    have hrd : ∀ f, (lowBitShown s t w).rd (trcPBase k) f = s.rd (trcPBase k) f := fun f =>
      lowBitShown_rd_above s w f ht (by unfold trcPBase trcBase; omega)
    simp only [State.evAt, hrd]
  have hdev : (lowBitShown s t w).devAt = s.devAt := by
    simp only [State.devAt, lowBitShown_rd_above s w _ ht (show 0xC101000000 ≤ trcBase by decide)]
  exact fun x hp hd => h x (fun k hk => by rw [hat k]; exact hp k hk) (by rwa [hdev])

/-- The fault's own fields, and HEAD, which stays. -/
theorem lowBitShown_rd (s : State) (t w : Nat) : (lowBitShown s t w).rd (qBase (.cq t)) SEQ_QSTAT.FAULT = 1 ∧
    (lowBitShown s t w).rd (qBase (.cq t)) SEQ_QSTAT.FAULT_CODE = 0x0A ∧
    (lowBitShown s t w).rd (tileBase t) TILE_STAT.NO_LOWBIT = 1 ∧ (lowBitShown s t w).qHead (.cq t) = s.qHead (.cq t) := by
  unfold State.qHead lowBitShown
  simp (disch := decide) only [State.rd_wr_lo_ne, State.rd_setQ, State.rd_wr_same]
  decide

/-- No command is being issued when the one at HEAD may be judged. -/
theorem atHead_cur {s : State} {q : QId} (h : s.atHead q = true) : (s.queue q).cur = none := by
  simp only [State.atHead, Bool.and_eq_true, Option.isNone_iff_eq_none] at h
  obtain ⟨⟨⟨⟨⟨⟨⟨_, hcur⟩, _⟩, _⟩, _⟩, _⟩, _⟩, _⟩ := h
  exact hcur

/-- The fault leaves no block open when no command is being issued. -/
theorem lowBitShown_closed {s : State} {t : Nat} (w : Nat) (hc : (s.queue (.cq t)).cur = none) :
    ((lowBitShown s t w).queue (.cq t)).cur = none ∧ ((lowBitShown s t w).queue (.cq t)).isOpen = false := by
  simp [lowBitShown, hc]

/-- Outside the blocks of CXLP_ and TRC_ stands every register that an event does not touch. -/
theorem evKey_of_not_evRegKey {k : Nat} (h : ¬ evRegKey k) : evKey k := by
  unfold evRegKey at h; unfold evKey; omega

/-- A refused low-bit command at HEAD that no break holds faults its queue (R166). -/
theorem exec_seqFault_lowBit {s : State} {t num w : Nat} (hl : s.live = true) (ht : t < 144)
    (href : s.refuseCode (.cq t) w = some 0x0A) (hat : s.atHead (.cq t) = true) (hh : s.headCmd (.cq t) = some (num, w))
    (hb : s.breakAt (.cq t) w 0 = false) :
    ∃ d, exec (.seqFault (.cq t)) s = .next (raiseEv (lowBitShown s t w) .seqFault (s.qPart (.cq t)) d) := by
  obtain ⟨d, hd⟩ := setFault_lowBit s t w
  rw [lowBitShown_qPart s w _ ht] at hd
  refine ⟨d, ?_⟩
  have hx : exec (.seqFault (.cq t)) s = .next (seqFault s (.cq t)) :=
    onLive_ok (ok := okQueue (.cq t)) hl (okTile_of_lt ht) (fun s => seqFault s (.cq t))
  rw [hx, ← hd]
  simp [seqFault, hat, hh, href, hb]

end Sys2Proof.Machine

open Sys2Proof Sys2Proof.Machine

/-- Settles O24: the refusal keeps every block closed before the command, and its fault touches its own registers and the
event record. -/
theorem lowBitRefused : Obligations.LowBitRefused := by
  unfold Obligations.LowBitRefused
  intro s t num w hl ht hidx hop hres hrep ham hlist hsig
  have href := refuseCode_lowBit hidx hop hres hrep ham hlist hsig
  refine ⟨href, fun r => by simp [State.cleanCount, href], fun _ ho hc n => exec_mmaLb_closed n hc ho, fun hat hh hb => ?_⟩
  obtain ⟨d, hx⟩ := exec_seqFault_lowBit hl ht href hat hh hb
  have hpart : ∀ k, s.qPart (.cq t) = some k → k < 8 := fun k hk => State.qPart_lt hk
  have hframe := raiseEv_frame (lowBitShown s t w) .seqFault (s.qPart (.cq t)) d
  have hregs := raiseEv_regs (lowBitShown s t w) .seqFault (s.qPart (.cq t)) d hpart
  have hmem := raiseEv_memButEv (lowBitShown s t w) .seqFault (s.qPart (.cq t)) d rfl
  have hrd : ∀ b f, b ≤ 0xC102000000 → f.off < 0x100 → f.lo < 64 →
      (raiseEv (lowBitShown s t w) .seqFault (s.qPart (.cq t)) d).rd b f = (lowBitShown s t w).rd b f := fun b f hb ho hlo =>
    raiseEv_rd _ _ _ _ b f hpart (Or.inl (by simp only [fkey]; omega))
  have hq : qBase (.cq t) ≤ 0xC102000000 := by simp only [qBase, tileBase]; omega
  have ht' : tileBase t ≤ 0xC102000000 := by simp only [tileBase]; omega
  obtain ⟨hfault, hcode, hlow, hhead⟩ := lowBitShown_rd s t w
  refine ⟨_, hx, (hrd _ _ hq (by decide) (by decide)).trans hfault, (hrd _ _ hq (by decide) (by decide)).trans hcode,
    (hrd _ _ ht' (by decide) (by decide)).trans hlow, (hrd _ _ hq (by decide) (by decide)).trans hhead,
    memButEv_lowBitShown ht hmem, fun k hk he => ?_, ?_, fun n => ?_⟩
  · exact (hregs.same k (evKey_of_not_evRegKey he)).trans (lowBitShown_regs s t w k hk)
  · rw [hframe.same, lowBitShown_same]
  · obtain ⟨hcur, hopen⟩ := lowBitShown_closed w (atHead_cur hat)
    exact exec_mmaLb_closed n (by rw [hframe.queue]; exact hcur) (by rw [hframe.queue]; exact hopen)

end
